-- ==== Sys2Proof/Word.lean ====
section
/-! DEFINITION. The word types of CORE: bytes (register and memory width, R1 and R15) and 16-bit
words (instruction words, I, PC and stack entries, R19, R20, R21, R50). -/

namespace Sys2Proof

/-- An 8-bit unsigned value: a general register, a timer or a memory byte. -/
abbrev Byte := BitVec 8

/-- A 16-bit unsigned value: an instruction word, I, PC or a stack entry. -/
abbrev Word := BitVec 16

/-- A 12-bit address immediate (the field nnn of R51). -/
abbrev Addr12 := BitVec 12

/-- MEM_SIZE of R4: the memory image has 4096 bytes. -/
def memSize : Nat := 4096

/-- PROGRAM_BASE of R4: where a load puts the program and where PC starts. -/
def programBase : Nat := 0x200

/-- MAX_PROGRAM of R4: 4096 - 0x200 bytes. -/
def maxProgram : Nat := 3584

end Sys2Proof
end

