-- ==== Sys2Proof/Config.lean ====
section
/-! DEFINITION. What an implementation fixes (the four open parameters of 00_scope.md R4) and the
free values of the host (R11, R14, R145). The parameters are plain data that the state carries
(notes/assumptions/1.md); the free values are opaque, so nothing can be proved of them. -/

namespace Sys2Proof.Config

/-- The parameter VF_ALIAS (R92, D4): what a flag-writing instruction leaves when V[F] is also its
destination. -/
inductive VfAlias where
  | asWritten        -- the statements run in the order the source writes them (the default)
  | snapshotFlagLast -- operands read first, destination written, V[F] written last
deriving DecidableEq, Repr

/-- The parameter FONT (R39, D14): the 80 bytes at 0x000..0x04F. -/
abbrev Font := Vector Byte 80

/-- The four open parameters of R4, the model's arguments. No step changes them. -/
structure Params where
  vfAlias : VfAlias
  allowOddPc : Bool
  font : Font
  /-- CLOCK_HZ: units of the host time `now` in one second (D16). -/
  clockHz : Nat
deriving DecidableEq, Repr

/-- R39's default FONT, glyphs 0 to F of five bytes each. -/
def defaultFont : Font :=
  #v[0xF0, 0x90, 0x90, 0x90, 0xF0,  0x20, 0x60, 0x20, 0x20, 0x70,
     0xF0, 0x10, 0xF0, 0x80, 0xF0,  0xF0, 0x10, 0xF0, 0x10, 0xF0,
     0x90, 0x90, 0xF0, 0x10, 0x10,  0xF0, 0x80, 0xF0, 0x10, 0xF0,
     0xF0, 0x80, 0xF0, 0x90, 0xF0,  0xF0, 0x10, 0x20, 0x40, 0x40,
     0xF0, 0x90, 0xF0, 0x90, 0xF0,  0xF0, 0x90, 0xF0, 0x10, 0xF0,
     0xF0, 0x90, 0xF0, 0x90, 0x90,  0xE0, 0x90, 0xE0, 0x90, 0xE0,
     0xF0, 0x80, 0x80, 0x80, 0xF0,  0xE0, 0x90, 0x90, 0x90, 0xE0,
     0xF0, 0x80, 0xF0, 0x80, 0xF0,  0xF0, 0x80, 0xF0, 0x80, 0x80]

/-- The parameters at reset: the spec's defaults for VF_ALIAS, ALLOW_ODD_PC and FONT.
CLOCK_HZ has no default in the spec: 60 is a DESIGN CHOICE (notes/assumptions/2.md, unsafe only for
a claim that starts from the reset state and depends on the tick). -/
def defaultParams : Params where
  vfAlias := .asWritten
  allowOddPc := false
  font := defaultFont
  clockHz := 60

/-- A program load the host makes in the gap between two cycles (the ports load, load_bytes and
load_now of R34), `wait` time units after the last known host time. -/
structure LoadCommand where
  wait : Nat
  bytes : List Byte
deriving DecidableEq, Repr

/-- What the host does between two cycles (R34, R144, R145): perhaps a load, perhaps fb_ack, and then
the inputs it drives for the coming cycle. Time is given as a wait, so `now` cannot decrease (the
host's duty of R145). -/
structure HostMove where
  load : Option LoadCommand
  fbAck : Bool
  wait : Nat
  keys : BitVec 16
  rand : Byte
deriving DecidableEq, Repr

/-- Free value: the key vector the host drives at its n-th move (R28, R145). -/
opaque freeKeys : Nat → BitVec 16

/-- Free value: the time the host lets pass before its n-th step request (R145). -/
opaque freeWait : Nat → Nat

/-- Free value: the random byte of the n-th cycle (R14, D18). -/
opaque freeRand : Nat → Byte

/-- Free value: whether the host raises fb_ack in its n-th move (R145). -/
opaque freeAck : Nat → Bool

/-- The host's n-th move where the state's script gives none: every input is free, and there is no
load, since a run is what lies between two loads (R152; notes/assumptions/5.md). -/
def freeMove (n : Nat) : HostMove where
  load := none
  fbAck := freeAck n
  wait := freeWait n
  keys := freeKeys n
  rand := freeRand n

end Sys2Proof.Config
end

