-- ==== Sys2Proof/Syntax.lean ====
section
/-! DEFINITION. The 34 instructions of 30_encoding.md R55, one constructor per row of
spec/opcode_table.json. A register number is a `Fin 16` (R53: every field value names a register);
kk is a byte, nnn a 12-bit address, n a count 0..15. Fields an instruction ignores (R54, R57) are no
operands. -/

namespace Sys2Proof

inductive Instr where
  /-- CLS, 00E0 (R80). -/
  | cls
  /-- RET, 00EE (R83). -/
  | ret
  /-- JP nnn, 1nnn (R84). -/
  | jp (nnn : Addr12)
  /-- CALL nnn, 2nnn (R85). -/
  | call (nnn : Addr12)
  /-- SE Vx, kk, 3xkk (R87). -/
  | seImm (x : Fin 16) (kk : Byte)
  /-- SNE Vx, kk, 4xkk (R88). -/
  | sneImm (x : Fin 16) (kk : Byte)
  /-- SE Vx, Vy, 5xyn with n ignored (R89, R57). -/
  | seReg (x y : Fin 16)
  /-- LD Vx, kk, 6xkk (R93). -/
  | ldImm (x : Fin 16) (kk : Byte)
  /-- ADD Vx, kk, 7xkk (R94). -/
  | addImm (x : Fin 16) (kk : Byte)
  /-- LD Vx, Vy, 8xy0 (R95). -/
  | ldReg (x y : Fin 16)
  /-- OR Vx, Vy, 8xy1 (R96). -/
  | orReg (x y : Fin 16)
  /-- AND Vx, Vy, 8xy2 (R97). -/
  | andReg (x y : Fin 16)
  /-- XOR Vx, Vy, 8xy3 (R98). -/
  | xorReg (x y : Fin 16)
  /-- ADD Vx, Vy, 8xy4 (R99). -/
  | addReg (x y : Fin 16)
  /-- SUB Vx, Vy, 8xy5 (R100). -/
  | subReg (x y : Fin 16)
  /-- SHR Vx, 8xy6 with y ignored (R101, R54). -/
  | shr (x : Fin 16)
  /-- SUBN Vx, Vy, 8xy7 (R102). -/
  | subnReg (x y : Fin 16)
  /-- SHL Vx, 8xyE with y ignored (R103, R54). -/
  | shl (x : Fin 16)
  /-- SNE Vx, Vy, 9xyn with n ignored (R90, R57). -/
  | sneReg (x y : Fin 16)
  /-- LD I, nnn, Annn (R105). -/
  | ldI (nnn : Addr12)
  /-- JP V0, nnn, Bnnn (R86). -/
  | jpV0 (nnn : Addr12)
  /-- RND Vx, kk, Cxkk (R104). -/
  | rnd (x : Fin 16) (kk : Byte)
  /-- DRW Vx, Vy, n, Dxyn (R81). -/
  | drw (x y n : Fin 16)
  /-- SKP Vx, Ex9E (R111). -/
  | skp (x : Fin 16)
  /-- SKNP Vx, ExA1 (R112). -/
  | sknp (x : Fin 16)
  /-- LD Vx, DT, Fx07 (R114). -/
  | ldVxDt (x : Fin 16)
  /-- LD Vx, K, Fx0A (R113). -/
  | ldVxK (x : Fin 16)
  /-- LD DT, Vx, Fx15 (R115). -/
  | ldDtVx (x : Fin 16)
  /-- LD ST, Vx, Fx18 (R116). -/
  | ldStVx (x : Fin 16)
  /-- ADD I, Vx, Fx1E (R106). -/
  | addI (x : Fin 16)
  /-- LD F, Vx, Fx29 (R107). -/
  | ldF (x : Fin 16)
  /-- LD B, Vx, Fx33 (R108). -/
  | ldB (x : Fin 16)
  /-- LD [I], Vx, Fx55 (R109). -/
  | ldMemVx (x : Fin 16)
  /-- LD Vx, [I], Fx65 (R110). -/
  | ldVxMem (x : Fin 16)
deriving DecidableEq, Repr

end Sys2Proof
end

