-- ==== Sys2Proof/WellFormed.lean ====
section
/-! DEFINITION. Well-formedness. The operand types of `Instr` are exactly the operand fields of R51
and R53 (no field value is reserved), so an ill-formed operand cannot be written as an `Instr`: the
checks stand where raw numbers enter, at an operand (`reg?`, `byte?`, `addr?`), at an instruction
given by its bits (`wordInRange`) and at the parameters (`Params.wf`). -/

namespace Sys2Proof.WellFormed

/-- A register number or a sprite height: 0..15 (R53). -/
def reg? (k : Nat) : Option (Fin 16) := if h : k < 16 then some ⟨k, h⟩ else none

/-- A byte immediate kk: 0..255 (R53). -/
def byte? (k : Nat) : Option Byte := if k < 256 then some (BitVec.ofNat 8 k) else none

/-- An address immediate nnn: 0x000..0xFFF (R53). -/
def addr? (k : Nat) : Option Addr12 := if k < 4096 then some (BitVec.ofNat 12 k) else none

/-- Bits `w` numbered over `nbits` bits are at most one instruction word: every instruction is one
16-bit word (R50). -/
def wordInRange (nbits w : Nat) : Bool := decide (nbits ≤ 16) && decide (w < 2 ^ nbits)

/-- CLOCK_HZ is a number of units per second, so it is positive (R4, D16). The other three
parameters admit every value of their types. -/
def paramsOk (p : Config.Params) : Bool := decide (0 < p.clockHz)

end Sys2Proof.WellFormed
end

