-- ==== Sys2Proof/Decode.lean ====
section
/-! DEFINITION. The decoder of 30_encoding.md R56, total on every word and on any list of bytes, and
the encoder of R55's patterns. 29 of the 34 patterns are the spec's own supply (D1, D3;
notes/assumptions/12.md). -/

namespace Sys2Proof

/-- Why bytes decode to no instruction. -/
inductive DecodeError where
  /-- Fewer than two bytes: no whole word (R50). -/
  | truncated
  /-- The word matches no pattern of R55: `NotImplemented` (R56, R59). -/
  | notImplemented (op : Word)
deriving DecidableEq, Repr

/-! ## Fields (R51) -/

/-- The nibble n1, bits 15:12. -/
def fieldN1 (op : Word) : BitVec 4 := op.extractLsb' 12 4
/-- The register field x, bits 11:8. -/
def fieldX (op : Word) : Fin 16 := (op.extractLsb' 8 4).toFin
/-- The register field y, bits 7:4. -/
def fieldY (op : Word) : Fin 16 := (op.extractLsb' 4 4).toFin
/-- The field n, bits 3:0. -/
def fieldN (op : Word) : Fin 16 := (op.extractLsb' 0 4).toFin
/-- The byte field kk, bits 7:0. -/
def fieldKk (op : Word) : Byte := op.extractLsb' 0 8
/-- The address field nnn, bits 11:0. -/
def fieldNnn (op : Word) : Addr12 := op.extractLsb' 0 12

/-! ## Decode (R56) -/

/-- Under n1 = 0 the whole word is examined (R58). -/
def decodeN0 (op : Word) : Except DecodeError Instr :=
  if op = 0x00E0#16 then .ok .cls
  else if op = 0x00EE#16 then .ok .ret
  else .error (.notImplemented op)

/-- Under n1 = 8 the nibble n is examined (R56). -/
def decodeN8 (op : Word) : Except DecodeError Instr :=
  let x := fieldX op
  let y := fieldY op
  match (fieldN op).val with
  | 0x0 => .ok (.ldReg x y)
  | 0x1 => .ok (.orReg x y)
  | 0x2 => .ok (.andReg x y)
  | 0x3 => .ok (.xorReg x y)
  | 0x4 => .ok (.addReg x y)
  | 0x5 => .ok (.subReg x y)
  | 0x6 => .ok (.shr x)
  | 0x7 => .ok (.subnReg x y)
  | 0xE => .ok (.shl x)
  | _ => .error (.notImplemented op)

/-- Under n1 = E the byte kk is examined (R56). -/
def decodeNE (op : Word) : Except DecodeError Instr :=
  match (fieldKk op).toNat with
  | 0x9E => .ok (.skp (fieldX op))
  | 0xA1 => .ok (.sknp (fieldX op))
  | _ => .error (.notImplemented op)

/-- Under n1 = F the byte kk is examined (R56). -/
def decodeNF (op : Word) : Except DecodeError Instr :=
  let x := fieldX op
  match (fieldKk op).toNat with
  | 0x07 => .ok (.ldVxDt x)
  | 0x0A => .ok (.ldVxK x)
  | 0x15 => .ok (.ldDtVx x)
  | 0x18 => .ok (.ldStVx x)
  | 0x1E => .ok (.addI x)
  | 0x29 => .ok (.ldF x)
  | 0x33 => .ok (.ldB x)
  | 0x55 => .ok (.ldMemVx x)
  | 0x65 => .ok (.ldVxMem x)
  | _ => .error (.notImplemented op)

/-- R56: the instruction of a 16-bit word, or `NotImplemented`. Under n1 = 5 and 9 the nibble n is
not examined (R57). -/
def decode (op : Word) : Except DecodeError Instr :=
  match (fieldN1 op).toNat with
  | 0x0 => decodeN0 op
  | 0x1 => .ok (.jp (fieldNnn op))
  | 0x2 => .ok (.call (fieldNnn op))
  | 0x3 => .ok (.seImm (fieldX op) (fieldKk op))
  | 0x4 => .ok (.sneImm (fieldX op) (fieldKk op))
  | 0x5 => .ok (.seReg (fieldX op) (fieldY op))
  | 0x6 => .ok (.ldImm (fieldX op) (fieldKk op))
  | 0x7 => .ok (.addImm (fieldX op) (fieldKk op))
  | 0x8 => decodeN8 op
  | 0x9 => .ok (.sneReg (fieldX op) (fieldY op))
  | 0xA => .ok (.ldI (fieldNnn op))
  | 0xB => .ok (.jpV0 (fieldNnn op))
  | 0xC => .ok (.rnd (fieldX op) (fieldKk op))
  | 0xD => .ok (.drw (fieldX op) (fieldY op) (fieldN op))
  | 0xE => decodeNE op
  | _ => decodeNF op

/-! ## Bytes (R40: words are big-endian) -/

/-- The word of two consecutive bytes, the first at the lower address: bits 15:8, then 7:0. -/
def wordOfBytes (hi lo : Byte) : Word := hi ++ lo

/-- The byte of a word at the lower address (bits 15:8). -/
def highByte (op : Word) : Byte := op.extractLsb' 8 8

/-- The byte of a word at the higher address (bits 7:0). -/
def lowByte (op : Word) : Byte := op.extractLsb' 0 8

/-- Decode from any list of bytes: the instruction and the bytes after it. -/
def decodeBytes : List Byte → Except DecodeError (Instr × List Byte)
  | hi :: lo :: rest => (decode (wordOfBytes hi lo)).map (fun i => (i, rest))
  | _ => .error .truncated

/-- The instruction this decoder reads from an instruction whose bits, numbered as
spec/opcode_table.json numbers them (bit 0 the least significant of the one 16-bit word), are `w`.
Bits above `nbits` are 0. -/
def decodeTableWord (nbits w : Nat) : Option Instr :=
  if WellFormed.wordInRange nbits w then
    match decodeBytes [highByte (BitVec.ofNat 16 w), lowByte (BitVec.ofNat 16 w)] with
    | .ok (i, _) => some i
    | .error _ => none
  else none

/-! ## Encode (R55) -/

/-- Format NNN: `oooo nnnn nnnn nnnn` (R52). -/
def encodeNnn (n1 : BitVec 4) (nnn : Addr12) : Word := n1 ++ nnn

/-- Formats XKK and XFN: `oooo xxxx kkkk kkkk` (R52). -/
def encodeXkk (n1 : BitVec 4) (x : Fin 16) (kk : Byte) : Word := n1 ++ (BitVec.ofFin x : BitVec 4) ++ kk

/-- Format XYN: `oooo xxxx yyyy nnnn` (R52). -/
def encodeXyn (n1 : BitVec 4) (x y n : Fin 16) : Word :=
  n1 ++ (BitVec.ofFin x : BitVec 4) ++ (BitVec.ofFin y : BitVec 4) ++ (BitVec.ofFin n : BitVec 4)

/-- The word of an instruction (R55). A field the instruction ignores is written 0, as the spec's
programs write it (R62). -/
def encode : Instr → Word
  | .cls => 0x00E0#16
  | .ret => 0x00EE#16
  | .jp nnn => encodeNnn 0x1#4 nnn
  | .call nnn => encodeNnn 0x2#4 nnn
  | .seImm x kk => encodeXkk 0x3#4 x kk
  | .sneImm x kk => encodeXkk 0x4#4 x kk
  | .seReg x y => encodeXyn 0x5#4 x y 0
  | .ldImm x kk => encodeXkk 0x6#4 x kk
  | .addImm x kk => encodeXkk 0x7#4 x kk
  | .ldReg x y => encodeXyn 0x8#4 x y 0x0
  | .orReg x y => encodeXyn 0x8#4 x y 0x1
  | .andReg x y => encodeXyn 0x8#4 x y 0x2
  | .xorReg x y => encodeXyn 0x8#4 x y 0x3
  | .addReg x y => encodeXyn 0x8#4 x y 0x4
  | .subReg x y => encodeXyn 0x8#4 x y 0x5
  | .shr x => encodeXyn 0x8#4 x 0 0x6
  | .subnReg x y => encodeXyn 0x8#4 x y 0x7
  | .shl x => encodeXyn 0x8#4 x 0 0xE
  | .sneReg x y => encodeXyn 0x9#4 x y 0
  | .ldI nnn => encodeNnn 0xA#4 nnn
  | .jpV0 nnn => encodeNnn 0xB#4 nnn
  | .rnd x kk => encodeXkk 0xC#4 x kk
  | .drw x y n => encodeXyn 0xD#4 x y n
  | .skp x => encodeXkk 0xE#4 x 0x9E#8
  | .sknp x => encodeXkk 0xE#4 x 0xA1#8
  | .ldVxDt x => encodeXkk 0xF#4 x 0x07#8
  | .ldVxK x => encodeXkk 0xF#4 x 0x0A#8
  | .ldDtVx x => encodeXkk 0xF#4 x 0x15#8
  | .ldStVx x => encodeXkk 0xF#4 x 0x18#8
  | .addI x => encodeXkk 0xF#4 x 0x1E#8
  | .ldF x => encodeXkk 0xF#4 x 0x29#8
  | .ldB x => encodeXkk 0xF#4 x 0x33#8
  | .ldMemVx x => encodeXkk 0xF#4 x 0x55#8
  | .ldVxMem x => encodeXkk 0xF#4 x 0x65#8

/-- The bytes of an instruction in memory order (R40). -/
def encodeBytes (i : Instr) : List Byte := [highByte (encode i), lowByte (encode i)]

/-- The rows of spec/opcode_table.json as (match, mask) pairs. -/
def opcodeRow : Instr → Word × Word
  | .cls => (0x00E0, 0xFFFF)
  | .ret => (0x00EE, 0xFFFF)
  | .jp _ => (0x1000, 0xF000)
  | .call _ => (0x2000, 0xF000)
  | .seImm _ _ => (0x3000, 0xF000)
  | .sneImm _ _ => (0x4000, 0xF000)
  | .seReg _ _ => (0x5000, 0xF000)
  | .ldImm _ _ => (0x6000, 0xF000)
  | .addImm _ _ => (0x7000, 0xF000)
  | .ldReg _ _ => (0x8000, 0xF00F)
  | .orReg _ _ => (0x8001, 0xF00F)
  | .andReg _ _ => (0x8002, 0xF00F)
  | .xorReg _ _ => (0x8003, 0xF00F)
  | .addReg _ _ => (0x8004, 0xF00F)
  | .subReg _ _ => (0x8005, 0xF00F)
  | .shr _ => (0x8006, 0xF00F)
  | .subnReg _ _ => (0x8007, 0xF00F)
  | .shl _ => (0x800E, 0xF00F)
  | .sneReg _ _ => (0x9000, 0xF000)
  | .ldI _ => (0xA000, 0xF000)
  | .jpV0 _ => (0xB000, 0xF000)
  | .rnd _ _ => (0xC000, 0xF000)
  | .drw _ _ _ => (0xD000, 0xF000)
  | .skp _ => (0xE09E, 0xF0FF)
  | .sknp _ => (0xE0A1, 0xF0FF)
  | .ldVxDt _ => (0xF007, 0xF0FF)
  | .ldVxK _ => (0xF00A, 0xF0FF)
  | .ldDtVx _ => (0xF015, 0xF0FF)
  | .ldStVx _ => (0xF018, 0xF0FF)
  | .addI _ => (0xF01E, 0xF0FF)
  | .ldF _ => (0xF029, 0xF0FF)
  | .ldB _ => (0xF033, 0xF0FF)
  | .ldMemVx _ => (0xF055, 0xF0FF)
  | .ldVxMem _ => (0xF065, 0xF0FF)

/-- The bits of a word that an instruction examines or uses as an operand: all but the ignored ones,
n of SE Vx, Vy and SNE Vx, Vy (R57) and y of SHR and SHL (R54). -/
def usedBits : Instr → Word
  | .seReg _ _ => 0xFFF0
  | .sneReg _ _ => 0xFFF0
  | .shr _ => 0xFF0F
  | .shl _ => 0xFF0F
  | _ => 0xFFFF

end Sys2Proof
end

