-- ==== Sys2Proof/Machine/State.lean ====
section
/-! DEFINITION. The state of CORE as plain data: everything 10_state.md gives it, the input ports of
the coming cycle, and three fields of the model's own (params, script, turn; see INVENTORY.md). -/

namespace Sys2Proof.Machine

open Sys2Proof

/-- The run mode of R29. -/
inductive Mode where
  | idle   -- no program loaded since power-on
  | run    -- each step request executes one cycle
  | fault  -- a fault was raised; only a load leaves it
deriving DecidableEq, Repr

/-- The five faults of CORE (R117). Raising one is not the end of a step: the spec describes its
entry (R124), so a step that raises one answers a NEXT state in mode FAULT (`State.raise`), and no step
of this model answers `Outcome.fault` (notes/assumptions/7.md). -/
inductive Fault where
  /-- Code 1, raised by CALL with SP = 16 (R118). Safe: the spec's own entry is taken. -/
  | stackOverflow
  /-- Code 2, raised by RET with SP = 0 (R119). Safe: the spec's own entry is taken. -/
  | stackUnderflow
  /-- Code 3, raised by a fetch, DRW, LD B, LD [I], Vx or LD Vx, [I] that would access an address above
  0xFFF; `base` is the base address of the access (R120). Safe: the spec's own entry is taken. -/
  | memBounds (base : Word)
  /-- Code 4, raised by the fetch at an odd PC when ALLOW_ODD_PC is false (R121). Safe: the spec's own
  entry is taken. -/
  | pcMisaligned
  /-- Code 5, raised by SKP and SKNP when V[x] = `k` exceeds 15 (R122). Safe: the spec's own entry is
  taken. -/
  | keyIndex (k : Byte)
deriving DecidableEq, Repr

/-- Why a step has no meaning. No arm of `exec` refuses: every instruction has its meaning, and a word
that is no instruction is `NotImplemented`, a defined outcome (R72). -/
inductive Refusal where
  /-- An instruction whose meaning is not written (raised by no arm of `exec` today). Safe: the run
  stops where the hardware goes on. -/
  | notModelled (mnemonic : String)
deriving DecidableEq, Repr

/-- The outcome of a step or of one instruction. -/
abbrev Outcome (σ : Type) := Host.Outcome σ Fault Refusal

/-- The frame buffer FB (R26): 32 rows of 64 one-bit cells, `fb[y][x]`. -/
abbrev FrameBuffer := Vector (Vector Bool 64) 32

/-- The memory image (R37) as the list of the cells that differ from their value after a load of no
program, in the canonical form `Memory.wf`. -/
abbrev Memory := List Host.Cell

structure State where
  /-- V0..VF (R15). -/
  v : Vector Byte 16
  /-- The index register I (R19). -/
  i : Word
  /-- The program counter PC (R20). -/
  pc : Word
  /-- The stack pointer SP, whose legal values are 0..16 (R21, R22). -/
  sp : Fin 17
  /-- STACK[0..15] (R21). -/
  stack : Vector Word 16
  /-- The delay timer DT (R23). -/
  dt : Byte
  /-- The sound timer ST (R24). -/
  st : Byte
  /-- Host time of the last tick (R25). -/
  lastTick : Nat
  /-- The frame buffer (R26). -/
  fb : FrameBuffer
  /-- The display-change bit (R27). -/
  fbChanged : Bool
  /-- The memory image (R37). -/
  mem : Memory
  /-- The run mode (R29). -/
  mode : Mode
  /-- fault_code (R30). -/
  faultCode : Byte
  /-- fault_pc (R30). -/
  faultPc : Word
  /-- fault_opcode (R30). -/
  faultOpcode : Word
  /-- fault_addr (R30). -/
  faultAddr : Word
  /-- diag_unimpl and diag_opcode (R31): `some op` when the last cycle's word `op` decoded to no
  instruction, `none` in every other cycle. -/
  diag : Option Word
  /-- Input port: the key vector KEYS of the coming cycle (R11, R28). -/
  keys : BitVec 16
  /-- Input port: the host time `now` of the coming cycle (R11). -/
  now : Nat
  /-- Input port: the random byte RAND of the coming cycle (R11, R14). -/
  rand : Byte
  /-- The model's own: the four open parameters of R4 (notes/assumptions/1.md). -/
  params : Config.Params
  /-- The model's own: the host's coming moves, oldest first (notes/assumptions/5.md). -/
  script : List Config.HostMove
  /-- The model's own: how many host moves there have been (the argument of Config's free values). -/
  turn : Nat
deriving DecidableEq, Repr

/-- The state after the reset of CORE, which is a program load (R36, R137), with no program bytes and
load_now = 0 (notes/assumptions/3.md). The input ports hold DESIGN CHOICE values
(notes/assumptions/4.md). -/
def State.reset : State where
  v := Vector.replicate 16 0#8
  i := 0#16
  pc := 0x200#16
  sp := 0
  stack := Vector.replicate 16 0#16
  dt := 0#8
  st := 0#8
  lastTick := 0
  fb := Vector.replicate 32 (Vector.replicate 64 false)
  fbChanged := true
  mem := []
  mode := .run
  faultCode := 0#8
  faultPc := 0#16
  faultOpcode := 0#16
  faultAddr := 0#16
  diag := none
  keys := 0#16
  now := 0
  rand := 0#8
  params := Config.defaultParams
  script := []
  turn := 0

/-- The power-on state (R141, R36): as after a load of no program, but in mode IDLE and with
`fb_changed` 0. -/
def State.powerOn : State := { State.reset with mode := .idle, fbChanged := false }

end Sys2Proof.Machine
end

