-- ==== Sys2Proof/Machine/Memory.lean ====
section
/-! DEFINITION. The memory image (R37..R45): 4096 bytes at Nat addresses, held as a sorted list of the
cells that differ from the contents after a load of no program. -/

namespace Sys2Proof.Machine

open Sys2Proof

/-- What an unlisted address reads as: the contents after a load of no program, the font at
0x000..0x04F and 0 elsewhere (R137, D13; notes/assumptions/10.md). -/
def Memory.initial (font : Config.Font) (a : Nat) : Byte :=
  if h : a < 80 then font[a] else 0#8

/-- MemRead(a, 1) of R8. -/
def Memory.read (font : Config.Font) (m : Memory) (a : Nat) : Byte :=
  match m with
  | [] => Memory.initial font a
  | (k, b) :: rest => if a = k then b else Memory.read font rest a

/-- Remove the entry of an address. -/
def Memory.erase (m : Memory) (a : Nat) : Memory :=
  match m with
  | [] => []
  | (k, b) :: rest => if a = k then rest else (k, b) :: Memory.erase rest a

/-- Put an entry at its place in the rising order, replacing the one that is there. -/
def Memory.insert (m : Memory) (a : Nat) (b : Byte) : Memory :=
  match m with
  | [] => [(a, b)]
  | (k, c) :: rest =>
    if a < k then (a, b) :: (k, c) :: rest
    else if a = k then (a, b) :: rest
    else (k, c) :: Memory.insert rest a b

/-- MemWrite(a, 1, b) of R8. A write of the value an unlisted address reads as removes the entry. -/
def Memory.write (font : Config.Font) (m : Memory) (a : Nat) (b : Byte) : Memory :=
  if b = Memory.initial font a then Memory.erase m a else Memory.insert m a b

/-- Write bytes at ascending addresses from `base` (R44). -/
def Memory.writeBytes (font : Config.Font) (m : Memory) (base : Nat) : List Byte → Memory
  | [] => m
  | b :: rest => Memory.writeBytes font (Memory.write font m base b) (base + 1) rest

/-- Read `n` bytes at ascending addresses from `base` (R44). -/
def Memory.readBytes (font : Config.Font) (m : Memory) (base : Nat) : Nat → List Byte
  | 0 => []
  | n + 1 => Memory.read font m base :: Memory.readBytes font m (base + 1) n

/-- Addresses strictly rise, starting at or above `lo`. -/
def Memory.sortedFrom (lo : Nat) (m : Memory) : Bool :=
  match m with
  | [] => true
  | (k, _) :: rest => decide (lo ≤ k) && Memory.sortedFrom (k + 1) rest

/-- No entry equals what its address reads as unlisted, and every address exists (R37). -/
def Memory.entriesOk (font : Config.Font) (m : Memory) : Bool :=
  m.all (fun c => decide (c.1 < memSize) && !decide (c.2 = Memory.initial font c.1))

/-- The canonical form of memory: equal memories are equal lists. -/
def Memory.wf (font : Config.Font) (m : Memory) : Bool :=
  Memory.sortedFrom 0 m && Memory.entriesOk font m

/-- The byte of memory at `a` in a state. -/
def State.readByte (s : State) (a : Nat) : Byte := Memory.read s.params.font s.mem a

/-- `s` with the bytes stored at `base` and upward. -/
def State.storeBytes (s : State) (base : Nat) (bytes : List Byte) : State :=
  { s with mem := Memory.writeBytes s.params.font s.mem base bytes }

/-- The `n` bytes from `base` upward in a state. -/
def State.loadBytes (s : State) (base n : Nat) : List Byte :=
  Memory.readBytes s.params.font s.mem base n

/-- The `n` bytes from `base` upward lie in memory (R43); nothing is accessed when n = 0 (R81). -/
def inBounds (base n : Nat) : Bool := n == 0 || decide (base + n ≤ memSize)

end Sys2Proof.Machine
end

