-- ==== Sys2Proof/Machine/Ops.lean ====
section
/-! DEFINITION. The shared operations of the instruction rules: register access (R7), the control-flow
resolver (R67..R72), the return stack (R21), fault entry (R124), the fetch (R41) and the timer tick
(R130). -/

namespace Sys2Proof.Machine

open Sys2Proof

/-! ## Registers (R7) -/

/-- V[x]. -/
def State.getV (s : State) (x : Fin 16) : Byte := s.v[x]

/-- V[x] <- b. -/
def State.setV (s : State) (x : Fin 16) (b : Byte) : State := { s with v := s.v.set x b }

/-- The number of the flag register V[F] (R16). -/
def flagReg : Fin 16 := 15

/-- I <- a. -/
def State.setI (s : State) (a : Word) : State := { s with i := a }

/-- PC <- a. -/
def State.setPc (s : State) (a : Word) : State := { s with pc := a }

/-- DT <- b. -/
def State.setDt (s : State) (b : Byte) : State := { s with dt := b }

/-- ST <- b. -/
def State.setSt (s : State) (b : Byte) : State := { s with st := b }

/-- A drawing instruction leaves the frame buffer as `fb` and sets `fb_changed` (R27). -/
def State.setFb (s : State) (fb : FrameBuffer) : State := { s with fb := fb, fbChanged := true }

/-! ## The control-flow resolver (R10, R67) -/

/-- The control outcome of an instruction (R10). -/
inductive Directive where
  | next
  | skip
  | jump (a : Word)
  | block
deriving DecidableEq, Repr

/-- A 16-bit value reduced mod 4096 (the address-space wrap of R68, R69 and D11). -/
def wrap12 (n : Nat) : Word := BitVec.ofNat 16 (n % 4096)

/-- The PC a directive leads to (R68..R71). -/
def Directive.target (d : Directive) (pc : Word) : Word :=
  match d with
  | .next => wrap12 (pc.toNat + 2)
  | .skip => wrap12 (pc.toNat + 4)
  | .jump a => a
  | .block => pc

/-- The resolver: apply the directive to PC. -/
def State.resolve (s : State) (d : Directive) : State := s.setPc (d.target s.pc)

/-- An instruction that completes with a directive. -/
def State.done (s : State) (d : Directive) : Outcome State := .next (s.resolve d)

/-- `Skip` if the tested condition holds, else `Next` (R69). -/
def skipIf (c : Bool) : Directive := if c then .skip else .next

/-! ## The return stack (R21) -/

/-- CALL's push: STACK[SP] <- a, then SP <- SP + 1 (R85, C1); `none` at capacity. -/
def State.push? (s : State) (a : Word) : Option State :=
  if h : s.sp.val < 16 then
    some { s with stack := s.stack.set s.sp.val a, sp := ⟨s.sp.val + 1, by omega⟩ }
  else none

/-- RET's pop: SP <- SP - 1, then STACK[SP], which is not cleared (R83); `none` when SP = 0. -/
def State.pop? (s : State) : Option (State × Word) :=
  if _h : 0 < s.sp.val then
    some ({ s with sp := ⟨s.sp.val - 1, by omega⟩ }, s.stack[s.sp.val - 1]'(by omega))
  else none

/-! ## Faults (R117, R124) -/

/-- fault_code of a fault (R117). -/
def Fault.code : Fault → Byte
  | .stackOverflow => 1#8
  | .stackUnderflow => 2#8
  | .memBounds _ => 3#8
  | .pcMisaligned => 4#8
  | .keyIndex _ => 5#8

/-- fault_addr of a fault (R117). -/
def Fault.info : Fault → Word
  | .stackOverflow => 0#16
  | .stackUnderflow => 0#16
  | .memBounds base => base
  | .pcMisaligned => 0#16
  | .keyIndex k => k.setWidth 16

/-- Fault entry (R124): the state is the one at the start of the cycle, and only the mode and the fault
status registers are written. -/
def State.enterFault (s : State) (f : Fault) (op : Word) : State :=
  { s with mode := .fault, faultCode := f.code, faultPc := s.pc, faultOpcode := op, faultAddr := f.info }

/-- An instruction `ins` raises a fault before its first write (R9): the entry of R124 is taken from the
state at the start of the cycle, and fault_opcode is the instruction's word (no faulting instruction has
an ignored field, so `encode` gives exactly the fetched word). -/
def State.raise (s : State) (f : Fault) (ins : Instr) : Outcome State :=
  .next (s.enterFault f (encode ins))

/-! ## The fetch (R41) -/

/-- Read the instruction word at PC, or the fault of the fetch: first the alignment, then the bound
(R127). -/
def State.fetch (s : State) : Except Fault Word :=
  if s.pc.getLsbD 0 && !s.params.allowOddPc then .error .pcMisaligned
  else if 0xFFF < s.pc.toNat + 1 then .error (.memBounds s.pc)
  else .ok (wordOfBytes (s.readByte s.pc.toNat) (s.readByte (s.pc.toNat + 1)))

/-! ## The timer tick (R130) -/

/-- A tick is due: 60 * (now - last_tick) >= CLOCK_HZ over the integers (R6, R130). -/
def State.tickDue (s : State) : Bool :=
  decide ((s.params.clockHz : Int) ≤ 60 * ((s.now : Int) - (s.lastTick : Int)))

/-- One decrement, never below 0 (R23, R130). -/
def decTimer (b : Byte) : Byte := if b = 0#8 then 0#8 else b - 1#8

/-- The tick rule (R130), once per non-faulting cycle, after the resolver (R73). -/
def State.tick (s : State) : State :=
  { s with
    dt := if s.tickDue then decTimer s.dt else s.dt
    st := if s.tickDue then decTimer s.st else s.st
    lastTick := if s.tickDue then s.now else s.lastTick }

/-! ## Outputs (R24, R31) -/

/-- sound_on: ST is nonzero and the mode is RUN (R24, D23). -/
def State.soundOn (s : State) : Bool := s.st != 0#8 && s.mode == .run

/-- diag_unimpl (R31). -/
def State.diagUnimpl (s : State) : Bool := s.diag.isSome

/-- diag_opcode (R31); 0 in a cycle with diag_unimpl = 0 (notes/assumptions/8.md). -/
def State.diagOpcode (s : State) : Word := s.diag.getD 0#16

/-- `diag_unimpl <- 0`, at the start of every cycle (R64). -/
def State.clearDiag (s : State) : State := { s with diag := none }

/-- The diagnostic strobe of a cycle whose word decoded to no instruction (R72). -/
def State.setDiag (s : State) (op : Word) : State := { s with diag := some op }

end Sys2Proof.Machine
end

