-- ==== Sys2Proof/Machine/Flags.lean ====
section
/-! DEFINITION. The flag computations (R16) and the order in which a flag and a destination are written
(the parameter VF_ALIAS, R92). -/

namespace Sys2Proof.Machine

open Sys2Proof

/-- A truth value as a register value: 1 or 0 (R6). -/
def flag (c : Bool) : Byte := if c then 1#8 else 0#8

/-- V[F] <- f. -/
def State.setFlag (s : State) (f : Byte) : State := s.setV flagReg f

/-- A flag and a destination both computed beforehand: the flag first under `as_written`, last under
`snapshot_flag_last` (R99, R100, R102). -/
def State.writeResult (s : State) (x : Fin 16) (value f : Byte) : State :=
  match s.params.vfAlias with
  | .asWritten => (s.setFlag f).setV x value
  | .snapshotFlagLast => (s.setV x value).setFlag f

/-- A flag, then a destination computed from V[x] as the flag write left it (`as_written`), or from V[x]
before the instruction (`snapshot_flag_last`): the shifts (R101, R103). -/
def State.writeShift (s : State) (x : Fin 16) (shift : Byte → Byte) (f : Byte) : State :=
  match s.params.vfAlias with
  | .asWritten => let s1 := s.setFlag f; s1.setV x (shift (s1.getV x))
  | .snapshotFlagLast => (s.setV x (shift (s.getV x))).setFlag f

/-! ## Exact results narrowed once (R91) -/

/-- The unbounded sum of two bytes exceeds 255 (R99). -/
def addCarry (a b : Byte) : Byte := flag (decide (255 < a.toNat + b.toNat))

/-- The sum of two bytes mod 256 (R94, R99). -/
def addWrap (a b : Byte) : Byte := BitVec.ofNat 8 ((a.toNat + b.toNat) % 256)

/-- The flag of a - b by the source's rule: 1 exactly when the difference is positive (R100). -/
def subFlag (a b : Byte) : Byte := flag (decide (0 < (a.toNat : Int) - b.toNat))

/-- The value of a - b by the source's rule: d if d > 0, else 255 - abs d (R100). -/
def subValue (a b : Byte) : Byte :=
  let d : Int := (a.toNat : Int) - b.toNat
  BitVec.ofNat 8 (if 0 < d then d.toNat else 255 - d.natAbs)

/-- The bit SHR shifts out: V[x] & 1 (R101). -/
def shrFlag (a : Byte) : Byte := a &&& 1#8

/-- V[x] >> 1 (R101). -/
def shrValue (a : Byte) : Byte := a >>> 1

/-- The bit SHL shifts out: (V[x] >> 7) & 1 (R103). -/
def shlFlag (a : Byte) : Byte := (a >>> 7) &&& 1#8

/-- (V[x] << 1) mod 256 (R103). -/
def shlValue (a : Byte) : Byte := BitVec.ofNat 8 (a.toNat * 2 % 256)

/-- The overflow flag of ADD I, Vx: the unbounded sum exceeds 0xFFF (R106). -/
def indexFlag (i : Word) (b : Byte) : Byte := flag (decide (0xFFF < i.toNat + b.toNat))

/-- (I + V[x]) mod 4096 (R106). -/
def indexSum (i : Word) (b : Byte) : Word := wrap12 (i.toNat + b.toNat)

end Sys2Proof.Machine
end

