-- ==== Sys2Proof/Machine/Alu.lean ====
section
/-! DEFINITION. Register arithmetic and logic (43_alu.md). -/

namespace Sys2Proof.Machine

open Sys2Proof

/-- LD Vx, kk (R93). -/
def execLdImm (x : Fin 16) (kk : Byte) (s : State) : Outcome State := (s.setV x kk).done .next

/-- ADD Vx, kk (R94): no flag. -/
def execAddImm (x : Fin 16) (kk : Byte) (s : State) : Outcome State :=
  (s.setV x (addWrap (s.getV x) kk)).done .next

/-- LD Vx, Vy (R95). -/
def execLdReg (x y : Fin 16) (s : State) : Outcome State := (s.setV x (s.getV y)).done .next

/-- OR Vx, Vy (R96): no flag. -/
def execOrReg (x y : Fin 16) (s : State) : Outcome State :=
  (s.setV x (s.getV x ||| s.getV y)).done .next

/-- AND Vx, Vy (R97): no flag. -/
def execAndReg (x y : Fin 16) (s : State) : Outcome State :=
  (s.setV x (s.getV x &&& s.getV y)).done .next

/-- XOR Vx, Vy (R98): no flag. -/
def execXorReg (x y : Fin 16) (s : State) : Outcome State :=
  (s.setV x (s.getV x ^^^ s.getV y)).done .next

/-- ADD Vx, Vy with carry flag (R99). -/
def execAddReg (x y : Fin 16) (s : State) : Outcome State :=
  (s.writeResult x (addWrap (s.getV x) (s.getV y)) (addCarry (s.getV x) (s.getV y))).done .next

/-- SUB Vx, Vy by the source's rule (R100). -/
def execSubReg (x y : Fin 16) (s : State) : Outcome State :=
  (s.writeResult x (subValue (s.getV x) (s.getV y)) (subFlag (s.getV x) (s.getV y))).done .next

/-- SHR Vx (R101). -/
def execShr (x : Fin 16) (s : State) : Outcome State :=
  (s.writeShift x shrValue (shrFlag (s.getV x))).done .next

/-- SUBN Vx, Vy: V[y] - V[x] into V[x] by the source's rule (R102). -/
def execSubnReg (x y : Fin 16) (s : State) : Outcome State :=
  (s.writeResult x (subValue (s.getV y) (s.getV x)) (subFlag (s.getV y) (s.getV x))).done .next

/-- SHL Vx (R103). -/
def execShl (x : Fin 16) (s : State) : Outcome State :=
  (s.writeShift x shlValue (shlFlag (s.getV x))).done .next

/-- RND Vx, kk (R104): RAND is the cycle's random byte, a free draw (R14). -/
def execRnd (x : Fin 16) (kk : Byte) (s : State) : Outcome State :=
  (s.setV x (s.rand &&& kk)).done .next

end Sys2Proof.Machine
end

