-- ==== Sys2Proof/Machine/Operands.lean ====
section
/-! DEFINITION. The operand forms of the instruction rules (R53): address immediates, the address of a
memory block at I, register blocks V0..Vx, the key tested by SKP and SKNP, and the pressed keys. -/

namespace Sys2Proof.Machine

open Sys2Proof

/-- nnn as a 16-bit address, zero-extended (R51). -/
def absAddr (nnn : Addr12) : Word := nnn.setWidth 16

/-- The first address of a memory block: base <- I. -/
def State.base (s : State) : Nat := s.i.toNat

/-- The registers V0..Vx, lowest first (R17, R109). -/
def State.regBlock (s : State) (x : Fin 16) : List Byte := s.v.toList.take (x.val + 1)

/-- V[i] <- bytes[i] for each i in 0..x (R110), from bytes read at `base` upward. -/
def State.loadRegs (s : State) (x : Fin 16) (base : Nat) : State :=
  { s with v := Vector.ofFn (fun j : Fin 16 =>
      if j.val ≤ x.val then s.readByte (base + j.val) else s.v[j]) }

/-- KEYS[k] (R7). -/
def State.keyDown (s : State) (k : Nat) : Bool := s.keys.getLsbD k

/-- The lowest pressed key, if any key is pressed (R113). -/
def State.lowestKey (s : State) : Option Nat := (List.range 16).find? s.keyDown

end Sys2Proof.Machine
end

