-- ==== Sys2Proof/Machine/Control.lean ====
section
/-! DEFINITION. Control transfer: the return, the jumps, the call and the register skips
(42_control_transfer.md). -/

namespace Sys2Proof.Machine

open Sys2Proof

/-- RET (R83). -/
def execRet (s : State) : Outcome State :=
  match s.pop? with
  | some (s1, a) => s1.done (.jump a)
  | none => s.raise .stackUnderflow .ret

/-- JP nnn (R84). -/
def execJp (nnn : Addr12) (s : State) : Outcome State := s.done (.jump (absAddr nnn))

/-- CALL nnn (R85): the return address is (PC + 2) mod 4096 (D11). -/
def execCall (nnn : Addr12) (s : State) : Outcome State :=
  match s.push? (wrap12 (s.pc.toNat + 2)) with
  | some s1 => s1.done (.jump (absAddr nnn))
  | none => s.raise .stackOverflow (.call nnn)

/-- JP V0, nnn (R86): V0, not V[x], and the sum mod 4096. -/
def execJpV0 (nnn : Addr12) (s : State) : Outcome State :=
  s.done (.jump (wrap12 (nnn.toNat + (s.getV 0).toNat)))

/-- SE Vx, kk (R87). -/
def execSeImm (x : Fin 16) (kk : Byte) (s : State) : Outcome State :=
  s.done (skipIf (decide (s.getV x = kk)))

/-- SNE Vx, kk (R88). -/
def execSneImm (x : Fin 16) (kk : Byte) (s : State) : Outcome State :=
  s.done (skipIf (decide (s.getV x ≠ kk)))

/-- SE Vx, Vy (R89). -/
def execSeReg (x y : Fin 16) (s : State) : Outcome State :=
  s.done (skipIf (decide (s.getV x = s.getV y)))

/-- SNE Vx, Vy (R90). -/
def execSneReg (x y : Fin 16) (s : State) : Outcome State :=
  s.done (skipIf (decide (s.getV x ≠ s.getV y)))

end Sys2Proof.Machine
end

