-- ==== Sys2Proof/Machine/Screen.lean ====
section
/-! DEFINITION. The frame-buffer controller (R26, R79): cells at (x mod 64, y mod 32), and drawing a
sprite by XOR with collision detection (R81). -/

namespace Sys2Proof.Machine

open Sys2Proof

/-- Every cell 0. -/
def FrameBuffer.clear : FrameBuffer := Vector.replicate 32 (Vector.replicate 64 false)

/-- FB[y][x]. -/
def FrameBuffer.get (fb : FrameBuffer) (y : Fin 32) (x : Fin 64) : Bool := fb[y][x]

/-- FB[y][x] <- FB[y][x] ^ 1. -/
def FrameBuffer.toggle (fb : FrameBuffer) (y : Fin 32) (x : Fin 64) : FrameBuffer :=
  fb.set y (fb[y].set x (!fb[y][x]))

/-- The row a pixel wraps to: (Y + r) mod 32 (R79). -/
def pixelRow (y r : Nat) : Fin 32 := Fin.ofNat 32 (y + r)

/-- The column a pixel wraps to: (X + c) mod 64 (R79). -/
def pixelCol (x c : Nat) : Fin 64 := Fin.ofNat 64 (x + c)

/-- One pixel of a sprite row `b`, row r and column c of the sprite at (x, y): a set bit toggles its
cell, and the collision is tested before the XOR. The pair is the buffer and the collision so far. -/
def drawPixel (x y r : Nat) (b : Byte) (acc : FrameBuffer × Bool) (c : Nat) : FrameBuffer × Bool :=
  if b.getLsbD (7 - c) then
    (acc.1.toggle (pixelRow y r) (pixelCol x c),
      acc.2 || acc.1.get (pixelRow y r) (pixelCol x c))
  else acc

/-- One row of a sprite, its columns 0..7 in order (R81). -/
def drawRow (x y r : Nat) (b : Byte) (acc : FrameBuffer × Bool) : FrameBuffer × Bool :=
  (List.range 8).foldl (drawPixel x y r b) acc

/-- The rows of a sprite from row r on (R81). -/
def drawRows (x y r : Nat) (rows : List Byte) (acc : FrameBuffer × Bool) : FrameBuffer × Bool :=
  match rows with
  | [] => acc
  | b :: rest => drawRows x y (r + 1) rest (drawRow x y r b acc)

/-- A whole sprite at (x, y): the new buffer and the collision. -/
def drawSprite (fb : FrameBuffer) (x y : Nat) (rows : List Byte) : FrameBuffer × Bool :=
  drawRows x y 0 rows (fb, false)

end Sys2Proof.Machine
end

