-- ==== Sys2Proof/Machine/Display.lean ====
section
/-! DEFINITION. The display instructions CLS and DRW (41_display.md). -/

namespace Sys2Proof.Machine

open Sys2Proof

/-- CLS (R80). -/
def execCls (s : State) : Outcome State := (s.setFb FrameBuffer.clear).done .next

/-- DRW Vx, Vy, n (R81): X, Y and I are read before any write, and V[F] is written last under either
VF_ALIAS (D27). -/
def execDrw (x y n : Fin 16) (s : State) : Outcome State :=
  if inBounds s.base n.val then
    let drawn := drawSprite s.fb (s.getV x).toNat (s.getV y).toNat (s.loadBytes s.base n.val)
    ((s.setFb drawn.1).setFlag (flag drawn.2)).done .next
  else s.raise (.memBounds s.i) (.drw x y n)

end Sys2Proof.Machine
end

