-- ==== Sys2Proof/Machine/Index.lean ====
section
/-! DEFINITION. The index register and the memory-block instructions (44_index_memory.md). -/

namespace Sys2Proof.Machine

open Sys2Proof

/-- LD I, nnn (R105). -/
def execLdI (nnn : Addr12) (s : State) : Outcome State := (s.setI (absAddr nnn)).done .next

/-- ADD I, Vx with overflow flag (R106). Under `as_written` the second statement reads V[x] after the
flag write. -/
def execAddI (x : Fin 16) (s : State) : Outcome State :=
  match s.params.vfAlias with
  | .asWritten =>
    let s1 := s.setFlag (indexFlag s.i (s.getV x))
    (s1.setI (indexSum s1.i (s1.getV x))).done .next
  | .snapshotFlagLast =>
    ((s.setI (indexSum s.i (s.getV x))).setFlag (indexFlag s.i (s.getV x))).done .next

/-- LD F, Vx (R107): V[x] is used whole. -/
def execLdF (x : Fin 16) (s : State) : Outcome State :=
  (s.setI (wrap12 ((s.getV x).toNat * 5))).done .next

/-- The decimal digits of a byte, hundreds first (R108). -/
def bcdDigits (b : Byte) : List Byte :=
  [BitVec.ofNat 8 (b.toNat / 100), BitVec.ofNat 8 (b.toNat / 10 % 10), BitVec.ofNat 8 (b.toNat % 10)]

/-- LD B, Vx (R108). -/
def execLdB (x : Fin 16) (s : State) : Outcome State :=
  if inBounds s.base 3 then (s.storeBytes s.base (bcdDigits (s.getV x))).done .next
  else s.raise (.memBounds s.i) (.ldB x)

/-- LD [I], Vx (R109): I is not changed. -/
def execLdMemVx (x : Fin 16) (s : State) : Outcome State :=
  if inBounds s.base (x.val + 1) then (s.storeBytes s.base (s.regBlock x)).done .next
  else s.raise (.memBounds s.i) (.ldMemVx x)

/-- LD Vx, [I] (R110): I is not changed. -/
def execLdVxMem (x : Fin 16) (s : State) : Outcome State :=
  if inBounds s.base (x.val + 1) then (s.loadRegs x s.base).done .next
  else s.raise (.memBounds s.i) (.ldVxMem x)

end Sys2Proof.Machine
end

