-- ==== Sys2Proof/Machine/Keypad.lean ====
section
/-! DEFINITION. The keypad and timer instructions (45_keypad_timers.md). -/

namespace Sys2Proof.Machine

open Sys2Proof

/-- SKP Vx (R111). -/
def execSkp (x : Fin 16) (s : State) : Outcome State :=
  if 15 < (s.getV x).toNat then s.raise (.keyIndex (s.getV x)) (.skp x)
  else s.done (skipIf (s.keyDown (s.getV x).toNat))

/-- SKNP Vx (R112). -/
def execSknp (x : Fin 16) (s : State) : Outcome State :=
  if 15 < (s.getV x).toNat then s.raise (.keyIndex (s.getV x)) (.sknp x)
  else s.done (skipIf (!s.keyDown (s.getV x).toNat))

/-- LD Vx, K (R113): `Block` while no key is pressed. -/
def execLdVxK (x : Fin 16) (s : State) : Outcome State :=
  match s.lowestKey with
  | none => s.done .block
  | some k => (s.setV x (BitVec.ofNat 8 k)).done .next

/-- LD Vx, DT (R114). -/
def execLdVxDt (x : Fin 16) (s : State) : Outcome State := (s.setV x s.dt).done .next

/-- LD DT, Vx (R115): `last_tick` is not changed. -/
def execLdDtVx (x : Fin 16) (s : State) : Outcome State := (s.setDt (s.getV x)).done .next

/-- LD ST, Vx (R116): `last_tick` is not changed. -/
def execLdStVx (x : Fin 16) (s : State) : Outcome State := (s.setSt (s.getV x)).done .next

end Sys2Proof.Machine
end

