-- ==== Sys2Proof/Machine/Ports.lean ====
section
/-! DEFINITION. What the host does to CORE between two cycles (R34, R35, R144, R145): the program load
(the only reset, R137), fb_ack, and the inputs of the coming cycle. -/

namespace Sys2Proof.Machine

open Sys2Proof

/-- Program load (R137, R139): every item of R36 gets its value after a load, in one atomic act
(R138), accepted in every mode. The open parameters, the ports and the model's own fields stay. The
memory is the initial contents (font and zeros) with at most 3584 program bytes written from 0x200. -/
def State.load (s : State) (bytes : List Byte) (loadNow : Nat) : State :=
  { s with
    v := Vector.replicate 16 0#8
    i := 0#16
    pc := 0x200#16
    sp := 0
    stack := Vector.replicate 16 0#16
    dt := 0#8
    st := 0#8
    lastTick := loadNow
    fb := Vector.replicate 32 (Vector.replicate 64 false)
    fbChanged := true
    mem := Memory.writeBytes s.params.font [] programBase (bytes.take maxProgram)
    mode := .run
    faultCode := 0#8
    faultPc := 0#16
    faultOpcode := 0#16
    faultAddr := 0#16
    diag := none }

/-- The host's next move: the oldest of the script, or a free one (notes/assumptions/5.md). -/
def State.nextMove (s : State) : Config.HostMove :=
  match s.script with
  | m :: _ => m
  | [] => Config.freeMove s.turn

/-- The load of a move, if it has one; the host's time has then reached load_now. -/
def State.applyLoad (s : State) (c : Option Config.LoadCommand) : State :=
  match c with
  | some c => { s.load c.bytes (s.now + c.wait) with now := s.now + c.wait }
  | none => s

/-- fb_ack clears fb_changed (R27, R35); a move without it leaves the bit. -/
def State.applyAck (s : State) (ack : Bool) : State := { s with fbChanged := s.fbChanged && !ack }

/-- The inputs the host drives for the coming cycle (R28, R35); time only grows (R145). -/
def State.drive (s : State) (m : Config.HostMove) : State :=
  { s with now := s.now + m.wait, keys := m.keys, rand := m.rand }

/-- The move is used up. -/
def State.popMove (s : State) : State := { s with script := s.script.tail, turn := s.turn + 1 }

/-- The host's turn in the gap after a cycle: load, then fb_ack, then the inputs of the coming cycle
(notes/assumptions/16.md). -/
def State.hostTurn (s : State) : State :=
  (((s.applyLoad s.nextMove.load).applyAck s.nextMove.fbAck).drive s.nextMove).popMove

end Sys2Proof.Machine
end

