-- ==== Sys2Proof/Machine/Cycle.lean ====
section
/-! DEFINITION. One cycle of CORE (R63, R64): fetch, decode, execute, resolve, and the tick of a cycle
that does not fault; and what a step request does in each mode (R76). -/

namespace Sys2Proof.Machine

open Sys2Proof

/-- Apply `f` to the next state of an outcome. -/
def mapNext (f : State → State) : Outcome State → Outcome State
  | .next s => .next (f s)
  | .fault r => .fault r
  | .refused r => .refused r

/-- The tick of a cycle: it runs unless the cycle faulted (R73, R74). -/
def State.tickUnlessFaulted (s : State) : State := if s.mode = .run then s.tick else s

/-- A word that decodes to no instruction (R72): PC advances by 2 and the diagnostic is raised. -/
def State.unimplemented (s : State) (op : Word) : State := (s.resolve .next).setDiag op

/-- Execute what a word decodes to (R56, R65). -/
def State.executeWord (s : State) (op : Word) : Outcome State :=
  match decode op with
  | .ok i => exec i s
  | .error _ => .next (s.unimplemented op)

/-- One cycle from mode RUN (R64). `diag_unimpl` is 0 in every cycle whose word is an instruction, a
faulting one included (R31). -/
def cycle (s : State) : Outcome State :=
  match s.clearDiag.fetch with
  | .error f => .next (s.clearDiag.enterFault f 0#16)
  | .ok op => mapNext State.tickUnlessFaulted (s.clearDiag.executeWord op)

/-- A step request: one cycle in mode RUN, nothing in IDLE and FAULT (R63, R76). -/
def stepRequest (s : State) : Outcome State :=
  match s.mode with
  | .run => cycle s
  | .idle => .next s
  | .fault => .next s

end Sys2Proof.Machine
end

