-- ==== Sys2Proof/Machine/Step.lean ====
section
/-! DEFINITION. `step`: a step request (R63, R76) and then the host's turn before the next one (R35);
and `State.withFetchWord`, which places an instruction where the next step fetches it. -/

namespace Sys2Proof.Machine

open Sys2Proof

/-- One step: the cycle with the inputs that stand at the ports, then the host's next move. -/
def step (s : State) : Host.Outcome State Fault Refusal := mapNext State.hostTurn (stepRequest s)

/-- The fetch at PC reads a word: PC is even or odd fetches are allowed, and PC + 1 is in memory. -/
def State.canFetch (s : State) : Bool :=
  !(s.pc.getLsbD 0 && !s.params.allowOddPc) && decide (s.pc.toNat + 1 ≤ 0xFFF)

/-- `s` with the word `w` where the next step fetches it, big-endian (R40). This stands for the load of
a program (R137): the mode is RUN, and PC is the entry point 0x200 where the PC of `s` is one no fetch
reads at (notes/assumptions/3.md). -/
def State.withFetchWord (s : State) (nbits w : Nat) : State :=
  let op : Word := BitVec.ofNat 16 (w % 2 ^ min nbits 16)
  let s1 := if s.canFetch then s else s.setPc 0x200#16
  let s2 : State := { s1 with mode := .run }
  s2.storeBytes s2.pc.toNat [highByte op, lowByte op]

end Sys2Proof.Machine
end

