-- ==== Sys2Proof/Safety.lean ====
section
/-! DEFINITION. The terms claims use: the invariant of the machine's states, what an instruction leaves
unchanged, the sprite a draw puts on the screen, and the safe and the ended states of R152. -/

namespace Sys2Proof.Machine

open Sys2Proof

/-! ## The invariant -/

/-- What holds of every state a run reaches: the address registers and the stack entries hold 12-bit
values (R19, R20, R22), memory is in canonical form, the fault status is written exactly in mode FAULT
with one of the five codes (R30), the diagnostic belongs to a cycle of a running core (R31), and the
host's time has not run backwards (R145). -/
structure State.Inv (s : State) : Prop where
  pc12 : s.pc.toNat ≤ 0xFFF
  i12 : s.i.toNat ≤ 0xFFF
  stack12 : ∀ j : Fin 16, s.stack[j].toNat ≤ 0xFFF
  memWf : Memory.wf s.params.font s.mem = true
  faultCode : s.mode = .fault ↔ s.faultCode ≠ 0#8
  codeRange : s.faultCode.toNat ≤ 5
  noFault : s.mode ≠ .fault → s.faultPc = 0#16 ∧ s.faultOpcode = 0#16 ∧ s.faultAddr = 0#16
  diagRun : s.mode ≠ .run → s.diag = none
  time : s.lastTick ≤ s.now

/-- A safe state (R152): the core is running and no fault has been raised. -/
def State.Safe (s : State) : Prop := s.mode = .run ∧ s.faultCode = 0#8

/-- SPIN, the end of a run (R152 b): mode RUN, and the word at PC, which the fetch reads, is JP PC. -/
def State.Spin (s : State) : Prop :=
  s.mode = .run ∧ s.pc.toNat ≤ 0xFFF ∧
    s.fetch = .ok (encode (.jp (BitVec.ofNat 12 s.pc.toNat)))

/-! ## Frames -/

/-- The pieces of a state other than V0..VF and PC. -/
inductive Part where
  | i | sp | stack | dt | st | lastTick | fb | fbChanged | mem | mode | faultStatus | diag
  | keys | now | rand | params | script | turn
deriving DecidableEq, Repr

/-- A piece is the same in `t` as in `s`; memory as every byte reads. -/
def Part.same (s t : State) : Part → Prop
  | .i => t.i = s.i
  | .sp => t.sp = s.sp
  | .stack => t.stack = s.stack
  | .dt => t.dt = s.dt
  | .st => t.st = s.st
  | .lastTick => t.lastTick = s.lastTick
  | .fb => t.fb = s.fb
  | .fbChanged => t.fbChanged = s.fbChanged
  | .mem => ∀ a, t.readByte a = s.readByte a
  | .mode => t.mode = s.mode
  | .faultStatus => t.faultCode = s.faultCode ∧ t.faultPc = s.faultPc ∧
      t.faultOpcode = s.faultOpcode ∧ t.faultAddr = s.faultAddr
  | .diag => t.diag = s.diag
  | .keys => t.keys = s.keys
  | .now => t.now = s.now
  | .rand => t.rand = s.rand
  | .params => t.params = s.params
  | .script => t.script = s.script
  | .turn => t.turn = s.turn

/-- From `s` to `t` nothing changed but PC, the named general registers and the named pieces. -/
structure UnchangedBut (regs : List (Fin 16)) (parts : List Part) (s t : State) : Prop where
  regs : ∀ r, r ∉ regs → t.getV r = s.getV r
  parts : ∀ p, p ∉ parts → p.same s t

/-- Every byte outside the `n` bytes from `base` upward reads in `t` as in `s`. -/
def MemoryUnchangedOutside (base n : Nat) (s t : State) : Prop :=
  ∀ a, a < base ∨ base + n ≤ a → t.readByte a = s.readByte a

/-! ## Results the statements name -/

/-- A register number as the nibble of its field (R51). -/
def nib (x : Fin 16) : BitVec 4 := BitVec.ofFin x

/-- `Next`: PC + 2 mod 4096 (R68). -/
def State.Advanced (s t : State) : Prop := t.pc.toNat = (s.pc.toNat + 2) % 4096

/-- `Skip` if the condition holds, else `Next` (R68, R69). -/
def State.SkippedIf (c : Prop) (s t : State) : Prop :=
  (c → t.pc.toNat = (s.pc.toNat + 4) % 4096) ∧ (¬c → t.pc.toNat = (s.pc.toNat + 2) % 4096)

/-- `t` is `s` with the fault entered that has these code and fault_addr, and the word `op` recorded
(R117, R124): mode and fault status are written, nothing else. -/
def State.EnteredFault (s t : State) (code : Byte) (addr op : Word) : Prop :=
  t = { s with mode := .fault, faultCode := code, faultPc := s.pc, faultOpcode := op, faultAddr := addr }

/-- 1 for true, 0 for false (R6). -/
def bit (c : Prop) [Decidable c] : Byte := if c then 1#8 else 0#8

/-- A tick is due in a cycle that starts with these times: 60 * (now - last_tick) >= CLOCK_HZ (R130). -/
def State.Due (s : State) : Prop := (s.params.clockHz : Int) ≤ 60 * ((s.now : Int) - s.lastTick)

/-- An instruction that writes V[F] as a flag (R16). -/
def writesFlag : Instr → Bool
  | .addReg _ _ => true
  | .subReg _ _ => true
  | .shr _ => true
  | .subnReg _ _ => true
  | .shl _ => true
  | .drw _ _ _ => true
  | .addI _ => true
  | _ => false

/-- The register an instruction names as its destination (R33), if it names one; the block load, which
writes V0..Vx, is not among them. -/
def destReg : Instr → Option (Fin 16)
  | .ldImm x _ => some x
  | .addImm x _ => some x
  | .ldReg x _ => some x
  | .orReg x _ => some x
  | .andReg x _ => some x
  | .xorReg x _ => some x
  | .addReg x _ => some x
  | .subReg x _ => some x
  | .shr x => some x
  | .subnReg x _ => some x
  | .shl x => some x
  | .rnd x _ => some x
  | .ldVxDt x => some x
  | .ldVxK x => some x
  | _ => none

/-- An instruction that skips on a condition (R69). -/
def isSkip : Instr → Bool
  | .seImm _ _ => true
  | .sneImm _ _ => true
  | .seReg _ _ => true
  | .sneReg _ _ => true
  | .skp _ => true
  | .sknp _ => true
  | _ => false

/-- An instruction that jumps (R70). -/
def isJump : Instr → Bool
  | .jp _ => true
  | .call _ => true
  | .ret => true
  | .jpV0 _ => true
  | _ => false

/-- The sprite of `n` rows at memory `base` drawn with its origin at (x, y) has a set bit on the cell at
row `cy`, column `cx` (R79, R81): row r = (cy - y) mod 32 of the sprite, column c = (cx - x) mod 64,
bit 7 - c of the row's byte. -/
def State.spriteCovers (s : State) (base n x y : Nat) (cy : Fin 32) (cx : Fin 64) : Bool :=
  let r := (cy.val + 32 - y % 32) % 32
  let c := (cx.val + 64 - x % 64) % 64
  decide (r < n) && decide (c < 8) && (s.readByte (base + r)).getLsbD (7 - c)

/-- What V[F] and V[x] hold after an instruction that computes the value and the flag beforehand (ADD,
SUB, SUBN; R92): with x other than F, each its own; with x = F, by VF_ALIAS. -/
def State.ResultAndFlag (s t : State) (x : Fin 16) (value f : Byte) : Prop :=
  (x ≠ 15 → t.getV x = value ∧ t.getV 15 = f) ∧
  (x = 15 → s.params.vfAlias = .asWritten → t.getV 15 = value) ∧
  (x = 15 → s.params.vfAlias = .snapshotFlagLast → t.getV 15 = f)

end Sys2Proof.Machine
end

