-- ==== Sys2Proof/Certificates/Slice0/Obligations.lean ====
section
/-! DEFINITION. The statements about the machine. Each says in its docstring which rule of spec/ it
formalises; a statement that rests on a choice of the model names the log entry. -/

open Sys2Proof Sys2Proof.Machine

/-! ## Encoding (30_encoding.md) -/

/-- Decoding the encoded instruction gives it back, with every operand at every value, as a word and as
bytes in memory order (R40, R55, R56). -/
def Obligations.DecodeOfEncodeIsIdentity : Prop :=
  ∀ (i : Instr) (rest : List Byte), decode (encode i) = .ok i ∧
    decodeBytes (encodeBytes i ++ rest) = .ok (i, rest)

/-- A word that decodes to an instruction lies in that instruction's row of the opcode table (R55), and
the encoder gives the word back with the bits the instruction ignores (R54, R57) cleared. That the encoder
writes an ignored bit as 0 is the model's choice, after the convention of R62 (log entry 13). -/
def Obligations.EncodeOfDecodeIsIdentityOnUsedBits : Prop :=
  ∀ (w : Word) (i : Instr), decode w = .ok i →
    w &&& (opcodeRow i).2 = (opcodeRow i).1 ∧ encode i = w &&& usedBits i

/-- A word that matches a row of the opcode table decodes to an instruction of that row and of no other
(R60). -/
def Obligations.MatchingRowIsUnique : Prop :=
  ∀ (w : Word) (i : Instr), w &&& (opcodeRow i).2 = (opcodeRow i).1 →
    ∃ j, decode w = .ok j ∧ opcodeRow j = opcodeRow i ∧
      ∀ k, w &&& (opcodeRow k).2 = (opcodeRow k).1 → opcodeRow k = opcodeRow i

/-- The words that decode to no instruction are exactly those R59 lists. -/
def Obligations.UnimplementedWordsAreThoseListed : Prop :=
  ∀ w : Word, decode w = .error (.notImplemented w) ↔
    (w.toNat / 4096 = 0 ∧ w.toNat ≠ 0x00E0 ∧ w.toNat ≠ 0x00EE) ∨
    (w.toNat / 4096 = 8 ∧ w.toNat % 16 ∈ [0x8, 0x9, 0xA, 0xB, 0xC, 0xD, 0xF]) ∨
    (w.toNat / 4096 = 0xE ∧ w.toNat % 256 ∉ [0x9E, 0xA1]) ∨
    (w.toNat / 4096 = 0xF ∧
      w.toNat % 256 ∉ [0x07, 0x0A, 0x15, 0x18, 0x1E, 0x29, 0x33, 0x55, 0x65])

/-- Every word 5xyn is SE Vx, Vy and every word 9xyn is SNE Vx, Vy, whatever n is (R57). -/
def Obligations.RegisterSkipsIgnoreLastNibble : Prop :=
  ∀ x y n : Fin 16, decode (0x5#4 ++ nib x ++ nib y ++ nib n) = .ok (.seReg x y) ∧
    decode (0x9#4 ++ nib x ++ nib y ++ nib n) = .ok (.sneReg x y)

/-- Words written out bit by bit from R55 decode to the instructions they stand for. -/
def Obligations.WordsOfTheSpecDecode : Prop :=
  decode 0b0000000011100000#16 = .ok .cls ∧
  decode 0b0010001000010000#16 = .ok (.call 0x210#12) ∧
  decode 0b0110101000000010#16 = .ok (.ldImm 0xA 0x02#8) ∧
  decode 0b0111101000000101#16 = .ok (.addImm 0xA 0x05#8) ∧
  decode 0b1000000000010101#16 = .ok (.subReg 0 1) ∧
  decode 0b1010001000010000#16 = .ok (.ldI 0x210#12) ∧
  decode 0b1101000000010010#16 = .ok (.drw 0 1 2) ∧
  decode 0b1110000110011110#16 = .ok (.skp 1) ∧
  decode 0b1111000000110011#16 = .ok (.ldB 0)

/-! ## The cycle (40_cycle.md, 60_exceptions.md) -/

/-- A step runs the decoded instruction: when the mode is RUN, the fetch is allowed at PC and the two
bytes there decode to `i`, the step is `exec i` on the state with the diagnostic cleared, then the timer
tick unless the instruction faulted, then the host's turn (R64, R73). -/
def Obligations.StepRunsDecodedInstruction : Prop :=
  ∀ (s : State) (i : Instr), s.mode = .run →
    (s.pc.getLsbD 0 = false ∨ s.params.allowOddPc = true) → s.pc.toNat < 0xFFF →
    decodeBytes [s.readByte s.pc.toNat, s.readByte (s.pc.toNat + 1)] = .ok (i, []) →
    step s = mapNext State.hostTurn (mapNext State.tickUnlessFaulted (exec i s.clearDiag))

/-- The fetch (R41): the alignment fault first, then the bound, else the two bytes, big-endian. -/
def Obligations.FetchReadsBigEndianOrFaults : Prop :=
  ∀ s : State,
    (s.pc.toNat % 2 = 1 → s.params.allowOddPc = false → s.fetch = .error .pcMisaligned) ∧
    ((s.pc.toNat % 2 = 0 ∨ s.params.allowOddPc = true) → s.pc.toNat + 1 > 0xFFF →
      s.fetch = .error (.memBounds s.pc)) ∧
    ((s.pc.toNat % 2 = 0 ∨ s.params.allowOddPc = true) → s.pc.toNat + 1 ≤ 0xFFF →
      ∃ w : Word, s.fetch = .ok w ∧
        w.toNat = 256 * (s.readByte s.pc.toNat).toNat + (s.readByte (s.pc.toNat + 1)).toNat)

/-- A fetch fault (R117, R121, R124): PcMisaligned enters FAULT with code 4 and fault_addr 0, MemBounds
with code 3 and fault_addr PC; fault_opcode is 0, and nothing ticks. -/
def Obligations.FetchFaultsEnterFaultMode : Prop :=
  ∀ s : State, s.mode = .run →
    (s.pc.toNat % 2 = 1 → s.params.allowOddPc = false →
      ∃ t, cycle s = .next t ∧ s.clearDiag.EnteredFault t 4#8 0#16 0#16) ∧
    ((s.pc.toNat % 2 = 0 ∨ s.params.allowOddPc = true) → s.pc.toNat + 1 > 0xFFF →
      ∃ t, cycle s = .next t ∧ s.clearDiag.EnteredFault t 3#8 s.pc 0#16)

/-- A word that is no instruction (R72): PC advances by 2 mod 4096 and the diagnostic holds the word;
nothing else changes but by the timer tick of R130: when it is due each timer of the state before the
cycle goes down by one, not below 0, and last_tick becomes now; when it is not, all three are kept. -/
def Obligations.UnknownWordAdvancesWithDiagnostic : Prop :=
  ∀ (s : State) (op : Word), s.mode = .run → s.fetch = .ok op →
    decode op = .error (.notImplemented op) →
    ∃ t, cycle s = .next t ∧ s.Advanced t ∧ t.diagUnimpl = true ∧ t.diagOpcode = op ∧
      UnchangedBut [] [.diag, .dt, .st, .lastTick] s t ∧
      (s.Due → t.dt.toNat = s.dt.toNat - 1 ∧ t.st.toNat = s.st.toNat - 1 ∧ t.lastTick = s.now) ∧
      (¬s.Due → t.dt = s.dt ∧ t.st = s.st ∧ t.lastTick = s.lastTick)

/-- The timer tick (R130, R73): in a cycle that does not fault, after what the word does (`u` is the
state the resolver left), each nonzero timer goes down by one and last_tick becomes now exactly when
60 * (now - last_tick) >= CLOCK_HZ, and nothing else changes. -/
def Obligations.TickFollowsEveryNonFaultingCycle : Prop :=
  ∀ (s t : State), s.mode = .run → cycle s = .next t → t.mode = .run →
    ∃ op u, s.fetch = .ok op ∧ s.clearDiag.executeWord op = .next u ∧ t.pc = u.pc ∧
      UnchangedBut [] [.dt, .st, .lastTick] u t ∧
      (s.Due → t.dt.toNat = u.dt.toNat - 1 ∧ t.st.toNat = u.st.toNat - 1 ∧ t.lastTick = s.now) ∧
      (¬s.Due → t.dt = u.dt ∧ t.st = u.st ∧ t.lastTick = s.lastTick)

/-- In IDLE and FAULT a step request executes nothing (R76): CORE keeps every register, its memory, its
frame buffer and its timers; only the host's inputs move on, and fb_ack may clear fb_changed, as long as
the host does not load a program. -/
def Obligations.StoppedModesExecuteNothing : Prop :=
  ∀ s : State, s.mode ≠ .run → stepRequest s = .next s ∧
    (s.nextMove.load = none → ∃ t, step s = .next t ∧ t.pc = s.pc ∧
      UnchangedBut [] [.fbChanged, .keys, .now, .rand, .script, .turn] s t)

/-- Faults are precise (R74, R124, R125): a cycle that ends in FAULT leaves the state of its start but
for the mode and the four fault registers; fault_pc is the instruction's address and fault_opcode the
fetched word, or 0 when the fetch faulted. (That a faulting cycle shows diag_unimpl = 0 follows R31,
log entry 8.) -/
def Obligations.FaultingCycleOnlyRecordsTheFault : Prop :=
  ∀ s t : State, s.mode = .run → cycle s = .next t → t.mode = .fault →
    ∃ code addr op, s.clearDiag.EnteredFault t code addr op ∧ 1 ≤ code.toNat ∧ code.toNat ≤ 5 ∧
      (s.fetch = .ok op ∨ (∃ f, s.fetch = .error f) ∧ op = 0#16)

/-- Every instruction has a next state in every state; it keeps the mode or enters FAULT (R65, R124). -/
def Obligations.EveryInstructionAnswersNext : Prop :=
  ∀ (i : Instr) (s : State), ∃ t, exec i s = .next t ∧ (t.mode = s.mode ∨ t.mode = .fault)

/-- Self-modifying code (R48): the bytes LD [I], Vx has stored are what a later fetch at their address
reads. -/
def Obligations.FetchSeesStoredRegisters : Prop :=
  ∀ (s : State) (x : Fin 16) (p : Word), Memory.wf s.params.font s.mem = true →
    s.i.toNat + x.val ≤ 0xFFF → p.toNat % 2 = 0 →
    ∀ r q : Fin 16, q.val = r.val + 1 → q.val ≤ x.val → p.toNat = s.i.toNat + r.val →
      ∃ t, exec (.ldMemVx x) s = .next t ∧ (t.setPc p).fetch = .ok (s.getV r ++ s.getV q)

/-! ## Display (41_display.md) -/

/-- CLS (R80). -/
def Obligations.ClearScreenZeroesEveryCell : Prop :=
  decode 0x00E0#16 = .ok .cls ∧ ∀ s : State, ∃ t, exec .cls s = .next t ∧
    (∀ (y : Fin 32) (x : Fin 64), t.fb[y][x] = false) ∧ t.fbChanged = true ∧ s.Advanced t ∧
    UnchangedBut [] [.fb, .fbChanged] s t

/-- DRW Vx, Vy, n (R79, R81): each cell XOR the sprite's bit on it, V[F] the collision, or the bounds
fault. With x = F or y = F the coordinate is the old V[F]. -/
def Obligations.DrawXorsSpriteAndReportsCollision : Prop :=
  ∀ (x y n : Fin 16) (s : State),
    decode (0xD#4 ++ nib x ++ nib y ++ nib n) = .ok (.drw x y n) ∧
    (n.val = 0 ∨ s.i.toNat + n.val - 1 ≤ 0xFFF →
      ∃ t, exec (.drw x y n) s = .next t ∧
        (∀ (cy : Fin 32) (cx : Fin 64), t.fb[cy][cx] = (s.fb[cy][cx] ^^
          s.spriteCovers s.i.toNat n.val (s.getV x).toNat (s.getV y).toNat cy cx)) ∧
        t.getV 15 = bit (∃ (cy : Fin 32) (cx : Fin 64), s.fb[cy][cx] = true ∧
          s.spriteCovers s.i.toNat n.val (s.getV x).toNat (s.getV y).toNat cy cx = true) ∧
        t.fbChanged = true ∧ s.Advanced t ∧ UnchangedBut [15] [.fb, .fbChanged] s t) ∧
    (0 < n.val → 0xFFF < s.i.toNat + n.val - 1 →
      ∃ t, exec (.drw x y n) s = .next t ∧
        s.EnteredFault t 3#8 s.i (0xD#4 ++ nib x ++ nib y ++ nib n))

/-- Drawing the same sprite at the same place twice restores the frame buffer, and the second draw
collides exactly when the sprite covers a cell that was not lit before the first (R81's rule applied
twice; with a clear buffer this is the sentence of R81's corner cases, see log entry 18). -/
def Obligations.DrawTwiceRestoresFrameBuffer : Prop :=
  ∀ (x y n : Fin 16) (s t u : State), x ≠ 15 → y ≠ 15 →
    (n.val = 0 ∨ s.i.toNat + n.val - 1 ≤ 0xFFF) →
    exec (.drw x y n) s = .next t → exec (.drw x y n) t = .next u →
    u.fb = s.fb ∧
      u.getV 15 = bit (∃ (cy : Fin 32) (cx : Fin 64), s.fb[cy][cx] = false ∧
        s.spriteCovers s.i.toNat n.val (s.getV x).toNat (s.getV y).toNat cy cx = true)

/-! ## Control transfer (42_control_transfer.md) -/

/-- RET (R83): the popped entry becomes PC and is not cleared, or StackUnderflow. -/
def Obligations.ReturnPopsToSavedAddress : Prop :=
  decode 0x00EE#16 = .ok .ret ∧ ∀ s : State,
    (∀ j : Fin 16, s.sp.val = j.val + 1 → ∃ t, exec .ret s = .next t ∧ t.sp.val = j.val ∧
      t.pc = s.stack[j] ∧ UnchangedBut [] [.sp] s t) ∧
    (s.sp = 0 → ∃ t, exec .ret s = .next t ∧ s.EnteredFault t 2#8 0#16 0x00EE#16)

/-- JP nnn (R84). -/
def Obligations.JumpSetsProgramCounter : Prop :=
  ∀ (nnn : Addr12) (s : State), decode (0x1#4 ++ nnn) = .ok (.jp nnn) ∧
    ∃ t, exec (.jp nnn) s = .next t ∧ t.pc.toNat = nnn.toNat ∧ UnchangedBut [] [] s t

/-- CALL nnn (R85): PC + 2 mod 4096 goes to the entry SP numbers, then SP is incremented; or
StackOverflow. -/
def Obligations.CallPushesReturnAddress : Prop :=
  ∀ (nnn : Addr12) (s : State), decode (0x2#4 ++ nnn) = .ok (.call nnn) ∧
    (s.sp.val < 16 → ∃ t, exec (.call nnn) s = .next t ∧ t.pc.toNat = nnn.toNat ∧
      t.sp.val = s.sp.val + 1 ∧
      (∀ j : Fin 16, (t.stack[j]).toNat =
        if j.val = s.sp.val then (s.pc.toNat + 2) % 4096 else (s.stack[j]).toNat) ∧
      UnchangedBut [] [.sp, .stack] s t) ∧
    (s.sp = 16 → ∃ t, exec (.call nnn) s = .next t ∧ s.EnteredFault t 1#8 0#16 (0x2#4 ++ nnn))

/-- A CALL below capacity, anything that leaves the stack alone, and a RET (R82): PC is the address after
the call and SP is what it was before it. -/
def Obligations.ReturnUndoesCall : Prop :=
  ∀ (nnn : Addr12) (s t : State), s.sp.val < 16 → exec (.call nnn) s = .next t →
    ∀ t' : State, t'.sp = t.sp → t'.stack = t.stack →
      ∃ u, exec .ret t' = .next u ∧ u.pc.toNat = (s.pc.toNat + 2) % 4096 ∧ u.sp = s.sp

/-- JP V0, nnn (R86): V0 is the offset, and the sum wraps mod 4096. -/
def Obligations.JumpWithOffsetAddsVZero : Prop :=
  ∀ (nnn : Addr12) (s : State), decode (0xB#4 ++ nnn) = .ok (.jpV0 nnn) ∧
    ∃ t, exec (.jpV0 nnn) s = .next t ∧ t.pc.toNat = (nnn.toNat + (s.getV 0).toNat) % 4096 ∧
      UnchangedBut [] [] s t

/-- SE Vx, kk and SNE Vx, kk (R87, R88). -/
def Obligations.ImmediateSkipsCompareRegister : Prop :=
  ∀ (x : Fin 16) (kk : Byte) (s : State),
    decode (0x3#4 ++ nib x ++ kk) = .ok (.seImm x kk) ∧
    decode (0x4#4 ++ nib x ++ kk) = .ok (.sneImm x kk) ∧
    (∃ t, exec (.seImm x kk) s = .next t ∧ s.SkippedIf (s.getV x = kk) t ∧ UnchangedBut [] [] s t) ∧
    (∃ t, exec (.sneImm x kk) s = .next t ∧ s.SkippedIf (s.getV x ≠ kk) t ∧ UnchangedBut [] [] s t)

/-- SE Vx, Vy and SNE Vx, Vy (R89, R90), for every n of the word. -/
def Obligations.RegisterSkipsCompareRegisters : Prop :=
  ∀ (x y n : Fin 16) (s : State),
    decode (0x5#4 ++ nib x ++ nib y ++ nib n) = .ok (.seReg x y) ∧
    decode (0x9#4 ++ nib x ++ nib y ++ nib n) = .ok (.sneReg x y) ∧
    (∃ t, exec (.seReg x y) s = .next t ∧ s.SkippedIf (s.getV x = s.getV y) t ∧
      UnchangedBut [] [] s t) ∧
    (∃ t, exec (.sneReg x y) s = .next t ∧ s.SkippedIf (s.getV x ≠ s.getV y) t ∧
      UnchangedBut [] [] s t)

/-! ## Register arithmetic and logic (43_alu.md) -/

/-- LD Vx, kk (R93). -/
def Obligations.LoadImmediateWritesByte : Prop :=
  ∀ (x : Fin 16) (kk : Byte) (s : State), decode (0x6#4 ++ nib x ++ kk) = .ok (.ldImm x kk) ∧
    ∃ t, exec (.ldImm x kk) s = .next t ∧ t.getV x = kk ∧ s.Advanced t ∧ UnchangedBut [x] [] s t

/-- ADD Vx, kk (R94): mod 256, no flag. -/
def Obligations.AddImmediateWrapsWithoutFlag : Prop :=
  ∀ (x : Fin 16) (kk : Byte) (s : State), decode (0x7#4 ++ nib x ++ kk) = .ok (.addImm x kk) ∧
    ∃ t, exec (.addImm x kk) s = .next t ∧
      (t.getV x).toNat = ((s.getV x).toNat + kk.toNat) % 256 ∧ s.Advanced t ∧
      UnchangedBut [x] [] s t

/-- LD Vx, Vy (R95). -/
def Obligations.CopyRegisterCopies : Prop :=
  ∀ (x y : Fin 16) (s : State), decode (0x8#4 ++ nib x ++ nib y ++ 0x0#4) = .ok (.ldReg x y) ∧
    ∃ t, exec (.ldReg x y) s = .next t ∧ t.getV x = s.getV y ∧ s.Advanced t ∧
      UnchangedBut [x] [] s t

/-- OR, AND and XOR (R96, R97, R98): no flag. -/
def Obligations.LogicOperationsWriteNoFlag : Prop :=
  ∀ (x y : Fin 16) (s : State),
    decode (0x8#4 ++ nib x ++ nib y ++ 0x1#4) = .ok (.orReg x y) ∧
    decode (0x8#4 ++ nib x ++ nib y ++ 0x2#4) = .ok (.andReg x y) ∧
    decode (0x8#4 ++ nib x ++ nib y ++ 0x3#4) = .ok (.xorReg x y) ∧
    (∃ t, exec (.orReg x y) s = .next t ∧ t.getV x = s.getV x ||| s.getV y ∧ s.Advanced t ∧
      UnchangedBut [x] [] s t) ∧
    (∃ t, exec (.andReg x y) s = .next t ∧ t.getV x = s.getV x &&& s.getV y ∧ s.Advanced t ∧
      UnchangedBut [x] [] s t) ∧
    (∃ t, exec (.xorReg x y) s = .next t ∧ t.getV x = s.getV x ^^^ s.getV y ∧ s.Advanced t ∧
      UnchangedBut [x] [] s t)

/-- ADD Vx, Vy (R99, R92): the sum mod 256, and the carry in V[F]; with x = F, VF_ALIAS decides. -/
def Obligations.AddSetsCarry : Prop :=
  ∀ (x y : Fin 16) (s : State), decode (0x8#4 ++ nib x ++ nib y ++ 0x4#4) = .ok (.addReg x y) ∧
    ∃ t, exec (.addReg x y) s = .next t ∧
      s.ResultAndFlag t x
        (BitVec.ofNat 8 (((s.getV x).toNat + (s.getV y).toNat) % 256))
        (bit ((s.getV x).toNat + (s.getV y).toNat > 255)) ∧
      s.Advanced t ∧ UnchangedBut [x, 15] [] s t

/-- SUB Vx, Vy (R100, R92): d = V[x] - V[y]; d if positive, else 255 - |d|; V[F] is 1 exactly when d is
positive. -/
def Obligations.SubtractFollowsSourceRule : Prop :=
  ∀ (x y : Fin 16) (s : State), decode (0x8#4 ++ nib x ++ nib y ++ 0x5#4) = .ok (.subReg x y) ∧
    ∃ t, exec (.subReg x y) s = .next t ∧
      s.ResultAndFlag t x
        (BitVec.ofNat 8 (if (s.getV y).toNat < (s.getV x).toNat
          then (s.getV x).toNat - (s.getV y).toNat
          else 255 - ((s.getV y).toNat - (s.getV x).toNat)))
        (bit ((s.getV y).toNat < (s.getV x).toNat)) ∧
      s.Advanced t ∧ UnchangedBut [x, 15] [] s t

/-- SUBN Vx, Vy (R102, R92): the rule of SUB with the operands exchanged, into V[x]. -/
def Obligations.ReverseSubtractFollowsSourceRule : Prop :=
  ∀ (x y : Fin 16) (s : State), decode (0x8#4 ++ nib x ++ nib y ++ 0x7#4) = .ok (.subnReg x y) ∧
    ∃ t, exec (.subnReg x y) s = .next t ∧
      s.ResultAndFlag t x
        (BitVec.ofNat 8 (if (s.getV x).toNat < (s.getV y).toNat
          then (s.getV y).toNat - (s.getV x).toNat
          else 255 - ((s.getV x).toNat - (s.getV y).toNat)))
        (bit ((s.getV x).toNat < (s.getV y).toNat)) ∧
      s.Advanced t ∧ UnchangedBut [x, 15] [] s t

/-- SHR Vx (R101, R92), for every y of the word: the bit shifted out goes to V[F]; with x = F the result
is 0 under as_written and the old bit 0 under snapshot_flag_last. -/
def Obligations.ShiftRightMovesLowBitToFlag : Prop :=
  ∀ (x y : Fin 16) (s : State), decode (0x8#4 ++ nib x ++ nib y ++ 0x6#4) = .ok (.shr x) ∧
    ∃ t, exec (.shr x) s = .next t ∧
      (x ≠ 15 → (t.getV x).toNat = (s.getV x).toNat / 2 ∧
        (t.getV 15).toNat = (s.getV x).toNat % 2) ∧
      (x = 15 → s.params.vfAlias = .asWritten → t.getV 15 = 0#8) ∧
      (x = 15 → s.params.vfAlias = .snapshotFlagLast →
        (t.getV 15).toNat = (s.getV 15).toNat % 2) ∧
      s.Advanced t ∧ UnchangedBut [x, 15] [] s t

/-- SHL Vx (R103, R92), for every y of the word: the bit shifted out goes to V[F]; with x = F the result
is twice that bit under as_written and the bit under snapshot_flag_last. -/
def Obligations.ShiftLeftMovesHighBitToFlag : Prop :=
  ∀ (x y : Fin 16) (s : State), decode (0x8#4 ++ nib x ++ nib y ++ 0xE#4) = .ok (.shl x) ∧
    ∃ t, exec (.shl x) s = .next t ∧
      (x ≠ 15 → (t.getV x).toNat = (s.getV x).toNat * 2 % 256 ∧
        (t.getV 15).toNat = (s.getV x).toNat / 128) ∧
      (x = 15 → s.params.vfAlias = .asWritten →
        (t.getV 15).toNat = 2 * ((s.getV 15).toNat / 128)) ∧
      (x = 15 → s.params.vfAlias = .snapshotFlagLast →
        (t.getV 15).toNat = (s.getV 15).toNat / 128) ∧
      s.Advanced t ∧ UnchangedBut [x, 15] [] s t

/-- RND Vx, kk (R104): the cycle's random byte, whatever it is, masked by kk. -/
def Obligations.RandomIsMaskedDraw : Prop :=
  ∀ (x : Fin 16) (kk : Byte) (s : State), decode (0xC#4 ++ nib x ++ kk) = .ok (.rnd x kk) ∧
    ∃ t, exec (.rnd x kk) s = .next t ∧ t.getV x = s.rand &&& kk ∧ s.Advanced t ∧
      UnchangedBut [x] [] s t

/-! ## Index register and memory blocks (44_index_memory.md) -/

/-- LD I, nnn (R105). -/
def Obligations.LoadIndexWritesAddress : Prop :=
  ∀ (nnn : Addr12) (s : State), decode (0xA#4 ++ nnn) = .ok (.ldI nnn) ∧
    ∃ t, exec (.ldI nnn) s = .next t ∧ t.i.toNat = nnn.toNat ∧ s.Advanced t ∧
      UnchangedBut [] [.i] s t

/-- ADD I, Vx (R106, R92): the sum mod 4096, and V[F] 1 exactly when it exceeds 0xFFF. With x = F the
second addend under as_written is the flag just written. -/
def Obligations.AddIndexSetsOverflow : Prop :=
  ∀ (x : Fin 16) (s : State), decode (0xF#4 ++ nib x ++ 0x1E#8) = .ok (.addI x) ∧
    ∃ t, exec (.addI x) s = .next t ∧
      t.getV 15 = bit (s.i.toNat + (s.getV x).toNat > 0xFFF) ∧
      (x ≠ 15 ∨ s.params.vfAlias = .snapshotFlagLast →
        t.i.toNat = (s.i.toNat + (s.getV x).toNat) % 4096) ∧
      (x = 15 → s.params.vfAlias = .asWritten →
        t.i.toNat = (s.i.toNat + (t.getV 15).toNat) % 4096) ∧
      s.Advanced t ∧ UnchangedBut [15] [.i] s t

/-- LD F, Vx (R107): five times V[x], used whole. -/
def Obligations.LoadFontPointsAtGlyph : Prop :=
  ∀ (x : Fin 16) (s : State), decode (0xF#4 ++ nib x ++ 0x29#8) = .ok (.ldF x) ∧
    ∃ t, exec (.ldF x) s = .next t ∧ t.i.toNat = (s.getV x).toNat * 5 % 4096 ∧ s.Advanced t ∧
      UnchangedBut [] [.i] s t

/-- LD B, Vx (R108): hundreds, tens and ones at I, I+1, I+2, or MemBounds when I > 0xFFD. -/
def Obligations.StoreDigitsWritesThreeBytes : Prop :=
  ∀ (x : Fin 16) (s : State), Memory.wf s.params.font s.mem = true →
    decode (0xF#4 ++ nib x ++ 0x33#8) = .ok (.ldB x) ∧
    (s.i.toNat + 2 ≤ 0xFFF → ∃ t, exec (.ldB x) s = .next t ∧
      (t.readByte s.i.toNat).toNat = (s.getV x).toNat / 100 ∧
      (t.readByte (s.i.toNat + 1)).toNat = (s.getV x).toNat / 10 % 10 ∧
      (t.readByte (s.i.toNat + 2)).toNat = (s.getV x).toNat % 10 ∧
      MemoryUnchangedOutside s.i.toNat 3 s t ∧ s.Advanced t ∧ UnchangedBut [] [.mem] s t) ∧
    (s.i.toNat + 2 > 0xFFF → ∃ t, exec (.ldB x) s = .next t ∧
      s.EnteredFault t 3#8 s.i (0xF#4 ++ nib x ++ 0x33#8))

/-- LD [I], Vx (R109): V0..Vx at I..I+x, I unchanged, or MemBounds. -/
def Obligations.DumpStoresRegisters : Prop :=
  ∀ (x : Fin 16) (s : State), Memory.wf s.params.font s.mem = true →
    decode (0xF#4 ++ nib x ++ 0x55#8) = .ok (.ldMemVx x) ∧
    (s.i.toNat + x.val ≤ 0xFFF → ∃ t, exec (.ldMemVx x) s = .next t ∧
      (∀ r : Fin 16, r.val ≤ x.val → t.readByte (s.i.toNat + r.val) = s.getV r) ∧
      MemoryUnchangedOutside s.i.toNat (x.val + 1) s t ∧ s.Advanced t ∧
      UnchangedBut [] [.mem] s t) ∧
    (s.i.toNat + x.val > 0xFFF → ∃ t, exec (.ldMemVx x) s = .next t ∧
      s.EnteredFault t 3#8 s.i (0xF#4 ++ nib x ++ 0x55#8))

/-- LD Vx, [I] (R110): V0..Vx from I..I+x, the registers above Vx and I unchanged, or MemBounds. -/
def Obligations.BlockLoadReadsRegisters : Prop :=
  ∀ (x : Fin 16) (s : State), decode (0xF#4 ++ nib x ++ 0x65#8) = .ok (.ldVxMem x) ∧
    (s.i.toNat + x.val ≤ 0xFFF → ∃ t, exec (.ldVxMem x) s = .next t ∧
      (∀ r : Fin 16, t.getV r =
        if r.val ≤ x.val then s.readByte (s.i.toNat + r.val) else s.getV r) ∧
      s.Advanced t ∧ ∀ p : Part, p.same s t) ∧
    (s.i.toNat + x.val > 0xFFF → ∃ t, exec (.ldVxMem x) s = .next t ∧
      s.EnteredFault t 3#8 s.i (0xF#4 ++ nib x ++ 0x65#8))

/-! ## Keypad and timers (45_keypad_timers.md) -/

/-- SKP Vx and SKNP Vx (R111, R112): the skip on the sampled key V[x], or KeyIndex above 15. -/
def Obligations.KeySkipsTestSampledKey : Prop :=
  ∀ (x : Fin 16) (s : State),
    decode (0xE#4 ++ nib x ++ 0x9E#8) = .ok (.skp x) ∧
    decode (0xE#4 ++ nib x ++ 0xA1#8) = .ok (.sknp x) ∧
    ((s.getV x).toNat ≤ 15 →
      (∃ t, exec (.skp x) s = .next t ∧
        s.SkippedIf (s.keys.getLsbD (s.getV x).toNat = true) t ∧ UnchangedBut [] [] s t) ∧
      (∃ t, exec (.sknp x) s = .next t ∧
        s.SkippedIf (s.keys.getLsbD (s.getV x).toNat = false) t ∧ UnchangedBut [] [] s t)) ∧
    (15 < (s.getV x).toNat →
      (∃ t, exec (.skp x) s = .next t ∧
        s.EnteredFault t 5#8 (BitVec.ofNat 16 (s.getV x).toNat) (0xE#4 ++ nib x ++ 0x9E#8)) ∧
      (∃ t, exec (.sknp x) s = .next t ∧
        s.EnteredFault t 5#8 (BitVec.ofNat 16 (s.getV x).toNat) (0xE#4 ++ nib x ++ 0xA1#8)))

/-- LD Vx, K (R113): with no key pressed nothing changes, PC included (Block); else the lowest pressed
key's number. -/
def Obligations.KeyWaitBlocksOrStoresLowestKey : Prop :=
  ∀ (x : Fin 16) (s : State), decode (0xF#4 ++ nib x ++ 0x0A#8) = .ok (.ldVxK x) ∧
    (s.keys = 0#16 → exec (.ldVxK x) s = .next s) ∧
    (∀ k : Nat, k < 16 → s.keys.getLsbD k = true → (∀ j < k, s.keys.getLsbD j = false) →
      ∃ t, exec (.ldVxK x) s = .next t ∧ (t.getV x).toNat = k ∧ s.Advanced t ∧
        UnchangedBut [x] [] s t)

/-- LD Vx, DT (R114). -/
def Obligations.ReadDelayTimer : Prop :=
  ∀ (x : Fin 16) (s : State), decode (0xF#4 ++ nib x ++ 0x07#8) = .ok (.ldVxDt x) ∧
    ∃ t, exec (.ldVxDt x) s = .next t ∧ t.getV x = s.dt ∧ s.Advanced t ∧ UnchangedBut [x] [] s t

/-- LD DT, Vx (R115): last_tick is not changed. -/
def Obligations.SetDelayTimer : Prop :=
  ∀ (x : Fin 16) (s : State), decode (0xF#4 ++ nib x ++ 0x15#8) = .ok (.ldDtVx x) ∧
    ∃ t, exec (.ldDtVx x) s = .next t ∧ t.dt = s.getV x ∧ s.Advanced t ∧ UnchangedBut [] [.dt] s t

/-- LD ST, Vx (R116, R24): last_tick is not changed, and in mode RUN sound_on is 1 exactly when the value
is nonzero. -/
def Obligations.SetSoundTimer : Prop :=
  ∀ (x : Fin 16) (s : State), decode (0xF#4 ++ nib x ++ 0x18#8) = .ok (.ldStVx x) ∧
    ∃ t, exec (.ldStVx x) s = .next t ∧ t.st = s.getV x ∧ s.Advanced t ∧
      (s.mode = .run → (t.soundOn = true ↔ s.getV x ≠ 0#8)) ∧ UnchangedBut [] [.st] s t

/-! ## Whole-machine rules -/

/-- The access table (R33): a general register is written only as an instruction's destination, as the
flag V[F] of a flag writer, or among V0..Vx by LD Vx, [I]; I is written only by LD I, ADD I and LD F; memory only by LD B and LD [I], Vx;
the frame buffer and fb_changed only by CLS and DRW; DT only by LD DT and ST only by LD ST; the stack only
by CALL and SP only by CALL and RET; and no instruction writes last_tick, the diagnostic, the ports or
the model's own fields. -/
def Obligations.InstructionsWriteOnlyWhatTheAccessTableGives : Prop :=
  ∀ (i : Instr) (s t : State), exec i s = .next t →
    (∀ r, destReg i ≠ some r → (writesFlag i = true → r ≠ 15) →
      (∀ x, i = .ldVxMem x → x.val < r.val) → t.getV r = s.getV r) ∧
    ((∀ nnn, i ≠ .ldI nnn) → (∀ x, i ≠ .addI x) → (∀ x, i ≠ .ldF x) → t.i = s.i) ∧
    ((∀ x, i ≠ .ldB x) → (∀ x, i ≠ .ldMemVx x) → t.mem = s.mem) ∧
    (i ≠ .cls → (∀ x y n, i ≠ .drw x y n) → t.fb = s.fb ∧ t.fbChanged = s.fbChanged) ∧
    ((∀ x, i ≠ .ldDtVx x) → t.dt = s.dt) ∧ ((∀ x, i ≠ .ldStVx x) → t.st = s.st) ∧
    ((∀ nnn, i ≠ .call nnn) → t.stack = s.stack) ∧
    ((∀ nnn, i ≠ .call nnn) → i ≠ .ret → t.sp = s.sp) ∧
    t.lastTick = s.lastTick ∧ t.diag = s.diag ∧ t.keys = s.keys ∧ t.now = s.now ∧ t.rand = s.rand ∧
    t.params = s.params ∧ t.script = s.script ∧ t.turn = s.turn

/-- The flag register (R16): an instruction that changes V[F] is one of the seven flag writers, or names
V[F] as its destination, or is LD VF, [I]; and a flag writer whose destination is not V[F], and which
does not fault, leaves 0 or 1 there. -/
def Obligations.OnlyFlagWritersAndDestinationsChangeFlag : Prop :=
  ∀ (i : Instr) (s t : State), exec i s = .next t →
    (writesFlag i = false → destReg i ≠ some 15 → i ≠ .ldVxMem 15 → t.getV 15 = s.getV 15) ∧
    (writesFlag i = true → destReg i ≠ some 15 → t.mode ≠ .fault →
      t.getV 15 = 0#8 ∨ t.getV 15 = 1#8)

/-- Where PC goes (R68, R69, R71, R77): an instruction that does not jump and does not fault moves PC by
2, or by 4 if it is a skip, each mod 4096, or is LD Vx, K with no key pressed and leaves PC. -/
def Obligations.ProgramCounterMovesAsDirected : Prop :=
  ∀ (i : Instr) (s t : State), exec i s = .next t → s.mode = .run → t.mode = .run →
    isJump i = false →
    t.pc.toNat = (s.pc.toNat + 2) % 4096 ∨
    (isSkip i = true ∧ t.pc.toNat = (s.pc.toNat + 4) % 4096) ∨
    ((∃ x, i = .ldVxK x) ∧ s.keys = 0#16 ∧ t = s)

/-- The invariant holds after reset and at power-on (R36). -/
def Obligations.ResetAndPowerOnMeetInvariant : Prop :=
  State.reset.Inv ∧ State.powerOn.Inv

/-- Every step keeps the invariant (R19, R20, R22, R30, R31, R43, R145): from any state that meets it,
in any mode, with any program, inputs and host moves. -/
def Obligations.StepKeepsInvariant : Prop :=
  ∀ s t : State, s.Inv → step s = .next t → t.Inv

/-- FAULT is left only by a program load, to RUN with the fault status cleared (R126). -/
def Obligations.FaultIsLeftOnlyByLoad : Prop :=
  ∀ s t : State, s.mode = .fault → step s = .next t → t.mode ≠ .fault →
    s.nextMove.load ≠ none ∧ t.mode = .run ∧ t.faultCode = 0#8 ∧ t.faultPc = 0#16 ∧
      t.faultOpcode = 0#16 ∧ t.faultAddr = 0#16

/-- SPIN (R152): a cycle from a spin state changes nothing but DT, ST and last_tick (and the diagnostic
output of the cycle before, which is not state), and the state is still a spin state. -/
def Obligations.SpinChangesOnlyTimers : Prop :=
  ∀ s : State, s.Spin → ∃ t, cycle s = .next t ∧ t.Spin ∧ t.pc = s.pc ∧ t.diag = none ∧
    UnchangedBut [] [.dt, .st, .lastTick, .diag] s t

/-- Time and parameters (R145, R4): a step never lets the host's time run backwards and never changes a
parameter; the time is the model's host moves' (log entries 1 and 5). -/
def Obligations.StepKeepsParametersAndTimeGrows : Prop :=
  ∀ s t : State, step s = .next t → t.params = s.params ∧ s.now ≤ t.now

/-- The host's turn in the gap after a cycle (R27, R34, R35; its place and its contents are the model's,
log entries 5 and 16): a load resets as `State.load` does, fb_ack clears fb_changed and nothing else
does, and the ports take the move's keys, time and random byte. -/
def Obligations.HostTurnLoadsAcknowledgesAndDrives : Prop :=
  ∀ s : State, s.hostTurn.keys = s.nextMove.keys ∧ s.hostTurn.rand = s.nextMove.rand ∧
    (s.nextMove.load = none → s.hostTurn.now = s.now + s.nextMove.wait ∧
      s.hostTurn.fbChanged = (s.fbChanged && !s.nextMove.fbAck) ∧ s.hostTurn.pc = s.pc ∧
      UnchangedBut [] [.fbChanged, .keys, .now, .rand, .script, .turn] s s.hostTurn) ∧
    (∀ c, s.nextMove.load = some c → s.hostTurn.now = s.now + c.wait + s.nextMove.wait ∧
      s.hostTurn.fbChanged = !s.nextMove.fbAck ∧ s.hostTurn.pc = 0x200#16 ∧
      UnchangedBut [] [.fbChanged, .keys, .now, .rand, .script, .turn]
        (s.load c.bytes (s.now + c.wait)) s.hostTurn) ∧
    (∀ t, step s = .next t → s.fbChanged = true → t.fbChanged = false → s.nextMove.fbAck = true)

/-- Program load (R137, R139): the registers, timers, stack, frame buffer, modes and status of R36, and
the memory with the font at 0x000..0x04F, at most 3584 program bytes from 0x200, and 0 elsewhere. -/
def Obligations.LoadResetsEverything : Prop :=
  ∀ (s : State) (bytes : List Byte) (n : Nat),
    (∀ r : Fin 16, (s.load bytes n).getV r = 0#8) ∧
    (s.load bytes n).i = 0#16 ∧ (s.load bytes n).pc = 0x200#16 ∧ (s.load bytes n).sp = 0 ∧
    (∀ j : Fin 16, (s.load bytes n).stack[j] = 0#16) ∧
    (s.load bytes n).dt = 0#8 ∧ (s.load bytes n).st = 0#8 ∧
    (∀ (y : Fin 32) (x : Fin 64), (s.load bytes n).fb[y][x] = false) ∧
    (s.load bytes n).fbChanged = true ∧ (s.load bytes n).lastTick = n ∧
    (s.load bytes n).mode = .run ∧ (s.load bytes n).faultCode = 0#8 ∧
    (s.load bytes n).faultPc = 0#16 ∧ (s.load bytes n).faultOpcode = 0#16 ∧
    (s.load bytes n).faultAddr = 0#16 ∧ (s.load bytes n).diagUnimpl = false ∧
    (∀ a (h : a < 80), (s.load bytes n).readByte a = s.params.font[a]) ∧
    (∀ a, 80 ≤ a → a < 0x200 → (s.load bytes n).readByte a = 0#8) ∧
    (∀ k, k < 3584 → (s.load bytes n).readByte (0x200 + k) = (bytes[k]?).getD 0#8)

/-- The reset state is the state after a load of no program with load_now = 0 (R36; load_now and the
empty program are the model's choice, log entry 3), and at power-on the mode is IDLE and a step request
does nothing (R141). -/
def Obligations.ResetIsLoadOfNoProgram : Prop :=
  State.reset = State.powerOn.load [] 0 ∧ State.reset.pc = 0x200#16 ∧ State.reset.mode = .run ∧
    State.powerOn.mode = .idle ∧ stepRequest State.powerOn = .next State.powerOn

/-- The memory list is canonical (R37, log entry 10): two memories in canonical form that read the same at
every address are the same list. -/
def Obligations.CanonicalMemoriesThatReadAlikeAreEqual : Prop :=
  ∀ (font : Config.Font) (m m' : Memory), Memory.wf font m = true → Memory.wf font m' = true →
    (∀ a, Memory.read font m a = Memory.read font m' a) → m = m'

/-- A word placed for the next step is the word it fetches (R40, R41; log entry 3). -/
def Obligations.PlacedWordIsFetched : Prop :=
  ∀ (s : State) (w : Word), Memory.wf s.params.font s.mem = true →
    (s.withFetchWord 16 w.toNat).fetch = .ok w
end

