-- ==== Sys2Proof/Laws/Memory.lean ====
section
/-! SUPPORT. The laws of the memory image: a read after a write, that a write leaves every other address
alone, and that every operation keeps the canonical form. -/

namespace Sys2Proof.Machine

open Sys2Proof

/-! ## Read after write -/

theorem Memory.read_insert (font : Config.Font) (m : Memory) (a c : Nat) (b : Byte) :
    Memory.read font (Memory.insert m a b) c = if c = a then b else Memory.read font m c := by
  induction m with
  | nil => simp [Memory.insert, Memory.read]
  | cons e rest ih =>
    obtain ⟨k, d⟩ := e
    rcases Nat.lt_trichotomy a k with h | rfl | h
    · rw [Memory.insert, if_pos h]; rfl
    · rw [Memory.insert, if_neg (lt_irrefl _), if_pos rfl]
      by_cases hc : c = a <;> simp [Memory.read, hc]
    · rw [Memory.insert, if_neg (by omega), if_neg (by omega), Memory.read, Memory.read, ih]
      split_ifs <;> first | rfl | omega

/-- Entries below the start of a sorted list are absent. -/
theorem Memory.read_of_lt (font : Config.Font) (m : Memory) (lo c : Nat)
    (hs : Memory.sortedFrom lo m = true) (hc : c < lo) :
    Memory.read font m c = Memory.initial font c := by
  induction m generalizing lo with
  | nil => rfl
  | cons e rest ih =>
    obtain ⟨k, d⟩ := e
    simp only [Memory.sortedFrom, Bool.and_eq_true, decide_eq_true_eq] at hs
    rw [Memory.read, if_neg (by omega), ih (k + 1) hs.2 (by omega)]

theorem Memory.read_erase (font : Config.Font) (m : Memory) (lo a c : Nat)
    (hs : Memory.sortedFrom lo m = true) :
    Memory.read font (Memory.erase m a) c =
      if c = a then Memory.initial font a else Memory.read font m c := by
  induction m generalizing lo with
  | nil => by_cases hc : c = a <;> simp [Memory.erase, Memory.read, hc]
  | cons e rest ih =>
    obtain ⟨k, d⟩ := e
    simp only [Memory.sortedFrom, Bool.and_eq_true, decide_eq_true_eq] at hs
    unfold Memory.erase
    split_ifs with h1 h2 h2
    · subst h1; subst h2; exact Memory.read_of_lt font rest _ c hs.2 (by omega)
    · subst h1; simp [Memory.read, h2]
    · subst h2; rw [Memory.read, if_neg h1, ih (k + 1) hs.2, if_pos rfl]
    · by_cases hk : c = k
      · simp [Memory.read, hk]
      · rw [Memory.read, if_neg hk, Memory.read, if_neg hk, ih (k + 1) hs.2, if_neg h2]

theorem Memory.wf_sorted {font : Config.Font} {m : Memory} (h : Memory.wf font m = true) :
    Memory.sortedFrom 0 m = true := by
  simp only [Memory.wf, Bool.and_eq_true] at h; exact h.1

theorem Memory.wf_entries {font : Config.Font} {m : Memory} (h : Memory.wf font m = true) :
    Memory.entriesOk font m = true := by
  simp only [Memory.wf, Bool.and_eq_true] at h; exact h.2

/-- A byte write changes that byte and no other. -/
theorem Memory.read_write (font : Config.Font) (m : Memory) (a c : Nat) (b : Byte)
    (h : Memory.wf font m = true) :
    Memory.read font (Memory.write font m a b) c = if c = a then b else Memory.read font m c := by
  unfold Memory.write
  split_ifs with hb hc hc
  · rw [Memory.read_erase font m 0 a c (Memory.wf_sorted h), if_pos hc, hb]
  · rw [Memory.read_erase font m 0 a c (Memory.wf_sorted h), if_neg hc]
  · rw [Memory.read_insert, if_pos hc]
  · rw [Memory.read_insert, if_neg hc]

/-! ## The canonical form is kept -/

theorem Memory.sortedFrom_mono (m : Memory) {lo lo' : Nat} (h : lo' ≤ lo)
    (hs : Memory.sortedFrom lo m = true) : Memory.sortedFrom lo' m = true := by
  cases m with
  | nil => rfl
  | cons e rest =>
    obtain ⟨k, d⟩ := e
    simp only [Memory.sortedFrom, Bool.and_eq_true, decide_eq_true_eq] at hs ⊢
    exact ⟨by omega, hs.2⟩

theorem Memory.sortedFrom_erase (m : Memory) (lo a : Nat) (hs : Memory.sortedFrom lo m = true) :
    Memory.sortedFrom lo (Memory.erase m a) = true := by
  induction m generalizing lo with
  | nil => rfl
  | cons e rest ih =>
    obtain ⟨k, d⟩ := e
    have hs' := hs
    simp only [Memory.sortedFrom, Bool.and_eq_true, decide_eq_true_eq] at hs
    unfold Memory.erase
    split_ifs
    · exact Memory.sortedFrom_mono rest (by omega) hs.2
    · simp only [Memory.sortedFrom, Bool.and_eq_true, decide_eq_true_eq]
      exact ⟨hs.1, ih (k + 1) hs.2⟩

theorem Memory.sortedFrom_insert (m : Memory) (lo a : Nat) (b : Byte) (ha : lo ≤ a)
    (hs : Memory.sortedFrom lo m = true) : Memory.sortedFrom lo (Memory.insert m a b) = true := by
  induction m generalizing lo with
  | nil => simp [Memory.insert, Memory.sortedFrom, ha]
  | cons e rest ih =>
    obtain ⟨k, d⟩ := e
    simp only [Memory.sortedFrom, Bool.and_eq_true, decide_eq_true_eq] at hs
    unfold Memory.insert
    split_ifs with h1 h2 <;> simp only [Memory.sortedFrom, Bool.and_eq_true, decide_eq_true_eq]
    · exact ⟨ha, by omega, hs.2⟩
    · subst h2; exact ⟨ha, hs.2⟩
    · exact ⟨hs.1, ih (k + 1) (by omega) hs.2⟩

/-- A cell is one the canonical form admits. -/
def Memory.cellOk (font : Config.Font) (c : Host.Cell) : Prop :=
  c.1 < memSize ∧ c.2 ≠ Memory.initial font c.1

theorem Memory.entriesOk_iff (font : Config.Font) (m : Memory) :
    Memory.entriesOk font m = true ↔ ∀ c ∈ m, Memory.cellOk font c := by
  simp [Memory.entriesOk, Memory.cellOk]

theorem Memory.mem_erase {m : Memory} {a : Nat} {c : Host.Cell} (h : c ∈ Memory.erase m a) : c ∈ m := by
  induction m with
  | nil => exact h
  | cons e rest ih =>
    obtain ⟨k, d⟩ := e
    unfold Memory.erase at h
    split_ifs at h
    · exact List.mem_cons_of_mem _ h
    · rcases List.mem_cons.mp h with rfl | h
      · exact List.mem_cons_self
      · exact List.mem_cons_of_mem _ (ih h)

theorem Memory.mem_insert {m : Memory} {a : Nat} {b : Byte} {c : Host.Cell}
    (h : c ∈ Memory.insert m a b) : c = (a, b) ∨ c ∈ m := by
  induction m with
  | nil => simpa [Memory.insert] using h
  | cons e rest ih =>
    obtain ⟨k, d⟩ := e
    unfold Memory.insert at h
    split_ifs at h
    · exact List.mem_cons.mp h
    · rcases List.mem_cons.mp h with h | h
      · exact .inl h
      · exact .inr (List.mem_cons_of_mem _ h)
    · rcases List.mem_cons.mp h with rfl | h
      · exact .inr List.mem_cons_self
      · exact (ih h).imp_right (List.mem_cons_of_mem _)

theorem Memory.wf_nil (font : Config.Font) : Memory.wf font [] = true := rfl

/-- A byte write inside memory keeps the canonical form. -/
theorem Memory.wf_write (font : Config.Font) (m : Memory) (a : Nat) (b : Byte) (ha : a < memSize)
    (h : Memory.wf font m = true) : Memory.wf font (Memory.write font m a b) = true := by
  have hs := Memory.wf_sorted h
  have he := (Memory.entriesOk_iff font m).mp (Memory.wf_entries h)
  unfold Memory.write Memory.wf
  rw [Bool.and_eq_true]
  split_ifs with hb
  · exact ⟨Memory.sortedFrom_erase m 0 a hs,
      (Memory.entriesOk_iff font _).mpr fun c hc => he c (Memory.mem_erase hc)⟩
  · refine ⟨Memory.sortedFrom_insert m 0 a b (Nat.zero_le a) hs,
      (Memory.entriesOk_iff font _).mpr fun c hc => ?_⟩
    rcases Memory.mem_insert hc with rfl | hc
    · exact ⟨ha, hb⟩
    · exact he c hc

/-! ## Blocks of bytes -/

theorem Memory.wf_writeBytes (font : Config.Font) (bs : List Byte) (m : Memory) (base : Nat)
    (hb : base + bs.length ≤ memSize) (h : Memory.wf font m = true) :
    Memory.wf font (Memory.writeBytes font m base bs) = true := by
  induction bs generalizing m base with
  | nil => exact h
  | cons b rest ih =>
    rw [List.length_cons] at hb
    exact ih _ _ (by omega) (Memory.wf_write font m base b (by omega) h)

/-- What a byte reads as after a block write: the block's byte inside it, the old byte elsewhere. -/
theorem Memory.read_writeBytes (font : Config.Font) (bs : List Byte) (m : Memory) (base c : Nat)
    (hb : base + bs.length ≤ memSize) (h : Memory.wf font m = true) :
    Memory.read font (Memory.writeBytes font m base bs) c =
      if base ≤ c then (bs[c - base]?).getD (Memory.read font m c) else Memory.read font m c := by
  induction bs generalizing m base with
  | nil => simp [Memory.writeBytes]
  | cons b rest ih =>
    rw [List.length_cons] at hb
    rw [Memory.writeBytes, ih _ _ (by omega) (Memory.wf_write font m base b (by omega) h),
      Memory.read_write font m base c b h]
    rcases Nat.lt_trichotomy c base with hc | rfl | hc
    · rw [if_neg (by omega), if_neg (by omega), if_neg (by omega)]
    · simp
    · obtain ⟨d, rfl⟩ : ∃ d, c = base + 1 + d := ⟨c - base - 1, by omega⟩
      have e : base + 1 + d - base = d + 1 := by omega
      simp [e, show base ≤ base + 1 + d by omega, show ¬ base + 1 + d = base by omega]

theorem Memory.readBytes_length (font : Config.Font) (m : Memory) (base n : Nat) :
    (Memory.readBytes font m base n).length = n := by
  induction n generalizing base with
  | zero => rfl
  | succ n ih => simp [Memory.readBytes, ih]

theorem Memory.readBytes_get (font : Config.Font) (m : Memory) (base n r : Nat) (hr : r < n) :
    (Memory.readBytes font m base n)[r]? = some (Memory.read font m (base + r)) := by
  induction n generalizing base r with
  | zero => omega
  | succ n ih =>
    cases r with
    | zero => simp [Memory.readBytes]
    | succ r => simp [Memory.readBytes, ih (base + 1) r (by omega), Nat.add_comm, Nat.add_left_comm]

/-- `inBounds` says that a block of bytes lies in memory (R43). -/
theorem inBounds_iff (base n : Nat) : inBounds base n = true ↔ n = 0 ∨ base + n ≤ memSize := by
  simp [inBounds]

/-- What a byte of the state reads as after a block store inside memory. -/
theorem State.readByte_storeBytes (s : State) (base c : Nat) (bs : List Byte)
    (hb : base + bs.length ≤ memSize) (h : Memory.wf s.params.font s.mem = true) :
    (s.storeBytes base bs).readByte c =
      if base ≤ c then (bs[c - base]?).getD (s.readByte c) else s.readByte c :=
  Memory.read_writeBytes s.params.font bs s.mem base c hb h

end Sys2Proof.Machine
end

