-- ==== Sys2Proof/Laws/State.lean ====
section
/-! SUPPORT. One lemma per field per update of the state, each true by definition, so that no later
proof unfolds a record update. -/

namespace Sys2Proof.Machine

open Sys2Proof

/-! ## State.setV -/

@[simp] theorem State.setV_v (s : State) (x : Fin 16) (b : Byte) : (s.setV x b).v = s.v.set x b := rfl
@[simp] theorem State.setV_i (s : State) (x : Fin 16) (b : Byte) : (s.setV x b).i = s.i := rfl
@[simp] theorem State.setV_pc (s : State) (x : Fin 16) (b : Byte) : (s.setV x b).pc = s.pc := rfl
@[simp] theorem State.setV_sp (s : State) (x : Fin 16) (b : Byte) : (s.setV x b).sp = s.sp := rfl
@[simp] theorem State.setV_stack (s : State) (x : Fin 16) (b : Byte) : (s.setV x b).stack = s.stack := rfl
@[simp] theorem State.setV_dt (s : State) (x : Fin 16) (b : Byte) : (s.setV x b).dt = s.dt := rfl
@[simp] theorem State.setV_st (s : State) (x : Fin 16) (b : Byte) : (s.setV x b).st = s.st := rfl
@[simp] theorem State.setV_lastTick (s : State) (x : Fin 16) (b : Byte) : (s.setV x b).lastTick = s.lastTick := rfl
@[simp] theorem State.setV_fb (s : State) (x : Fin 16) (b : Byte) : (s.setV x b).fb = s.fb := rfl
@[simp] theorem State.setV_fbChanged (s : State) (x : Fin 16) (b : Byte) : (s.setV x b).fbChanged = s.fbChanged := rfl
@[simp] theorem State.setV_mem (s : State) (x : Fin 16) (b : Byte) : (s.setV x b).mem = s.mem := rfl
@[simp] theorem State.setV_mode (s : State) (x : Fin 16) (b : Byte) : (s.setV x b).mode = s.mode := rfl
@[simp] theorem State.setV_faultCode (s : State) (x : Fin 16) (b : Byte) : (s.setV x b).faultCode = s.faultCode := rfl
@[simp] theorem State.setV_faultPc (s : State) (x : Fin 16) (b : Byte) : (s.setV x b).faultPc = s.faultPc := rfl
@[simp] theorem State.setV_faultOpcode (s : State) (x : Fin 16) (b : Byte) : (s.setV x b).faultOpcode = s.faultOpcode := rfl
@[simp] theorem State.setV_faultAddr (s : State) (x : Fin 16) (b : Byte) : (s.setV x b).faultAddr = s.faultAddr := rfl
@[simp] theorem State.setV_diag (s : State) (x : Fin 16) (b : Byte) : (s.setV x b).diag = s.diag := rfl
@[simp] theorem State.setV_keys (s : State) (x : Fin 16) (b : Byte) : (s.setV x b).keys = s.keys := rfl
@[simp] theorem State.setV_now (s : State) (x : Fin 16) (b : Byte) : (s.setV x b).now = s.now := rfl
@[simp] theorem State.setV_rand (s : State) (x : Fin 16) (b : Byte) : (s.setV x b).rand = s.rand := rfl
@[simp] theorem State.setV_params (s : State) (x : Fin 16) (b : Byte) : (s.setV x b).params = s.params := rfl
@[simp] theorem State.setV_script (s : State) (x : Fin 16) (b : Byte) : (s.setV x b).script = s.script := rfl
@[simp] theorem State.setV_turn (s : State) (x : Fin 16) (b : Byte) : (s.setV x b).turn = s.turn := rfl

/-! ## State.setI -/

@[simp] theorem State.setI_v (s : State) (a : Word) : (s.setI a).v = s.v := rfl
@[simp] theorem State.setI_i (s : State) (a : Word) : (s.setI a).i = a := rfl
@[simp] theorem State.setI_pc (s : State) (a : Word) : (s.setI a).pc = s.pc := rfl
@[simp] theorem State.setI_sp (s : State) (a : Word) : (s.setI a).sp = s.sp := rfl
@[simp] theorem State.setI_stack (s : State) (a : Word) : (s.setI a).stack = s.stack := rfl
@[simp] theorem State.setI_dt (s : State) (a : Word) : (s.setI a).dt = s.dt := rfl
@[simp] theorem State.setI_st (s : State) (a : Word) : (s.setI a).st = s.st := rfl
@[simp] theorem State.setI_lastTick (s : State) (a : Word) : (s.setI a).lastTick = s.lastTick := rfl
@[simp] theorem State.setI_fb (s : State) (a : Word) : (s.setI a).fb = s.fb := rfl
@[simp] theorem State.setI_fbChanged (s : State) (a : Word) : (s.setI a).fbChanged = s.fbChanged := rfl
@[simp] theorem State.setI_mem (s : State) (a : Word) : (s.setI a).mem = s.mem := rfl
@[simp] theorem State.setI_mode (s : State) (a : Word) : (s.setI a).mode = s.mode := rfl
@[simp] theorem State.setI_faultCode (s : State) (a : Word) : (s.setI a).faultCode = s.faultCode := rfl
@[simp] theorem State.setI_faultPc (s : State) (a : Word) : (s.setI a).faultPc = s.faultPc := rfl
@[simp] theorem State.setI_faultOpcode (s : State) (a : Word) : (s.setI a).faultOpcode = s.faultOpcode := rfl
@[simp] theorem State.setI_faultAddr (s : State) (a : Word) : (s.setI a).faultAddr = s.faultAddr := rfl
@[simp] theorem State.setI_diag (s : State) (a : Word) : (s.setI a).diag = s.diag := rfl
@[simp] theorem State.setI_keys (s : State) (a : Word) : (s.setI a).keys = s.keys := rfl
@[simp] theorem State.setI_now (s : State) (a : Word) : (s.setI a).now = s.now := rfl
@[simp] theorem State.setI_rand (s : State) (a : Word) : (s.setI a).rand = s.rand := rfl
@[simp] theorem State.setI_params (s : State) (a : Word) : (s.setI a).params = s.params := rfl
@[simp] theorem State.setI_script (s : State) (a : Word) : (s.setI a).script = s.script := rfl
@[simp] theorem State.setI_turn (s : State) (a : Word) : (s.setI a).turn = s.turn := rfl

/-! ## State.setPc -/

@[simp] theorem State.setPc_v (s : State) (a : Word) : (s.setPc a).v = s.v := rfl
@[simp] theorem State.setPc_i (s : State) (a : Word) : (s.setPc a).i = s.i := rfl
@[simp] theorem State.setPc_pc (s : State) (a : Word) : (s.setPc a).pc = a := rfl
@[simp] theorem State.setPc_sp (s : State) (a : Word) : (s.setPc a).sp = s.sp := rfl
@[simp] theorem State.setPc_stack (s : State) (a : Word) : (s.setPc a).stack = s.stack := rfl
@[simp] theorem State.setPc_dt (s : State) (a : Word) : (s.setPc a).dt = s.dt := rfl
@[simp] theorem State.setPc_st (s : State) (a : Word) : (s.setPc a).st = s.st := rfl
@[simp] theorem State.setPc_lastTick (s : State) (a : Word) : (s.setPc a).lastTick = s.lastTick := rfl
@[simp] theorem State.setPc_fb (s : State) (a : Word) : (s.setPc a).fb = s.fb := rfl
@[simp] theorem State.setPc_fbChanged (s : State) (a : Word) : (s.setPc a).fbChanged = s.fbChanged := rfl
@[simp] theorem State.setPc_mem (s : State) (a : Word) : (s.setPc a).mem = s.mem := rfl
@[simp] theorem State.setPc_mode (s : State) (a : Word) : (s.setPc a).mode = s.mode := rfl
@[simp] theorem State.setPc_faultCode (s : State) (a : Word) : (s.setPc a).faultCode = s.faultCode := rfl
@[simp] theorem State.setPc_faultPc (s : State) (a : Word) : (s.setPc a).faultPc = s.faultPc := rfl
@[simp] theorem State.setPc_faultOpcode (s : State) (a : Word) : (s.setPc a).faultOpcode = s.faultOpcode := rfl
@[simp] theorem State.setPc_faultAddr (s : State) (a : Word) : (s.setPc a).faultAddr = s.faultAddr := rfl
@[simp] theorem State.setPc_diag (s : State) (a : Word) : (s.setPc a).diag = s.diag := rfl
@[simp] theorem State.setPc_keys (s : State) (a : Word) : (s.setPc a).keys = s.keys := rfl
@[simp] theorem State.setPc_now (s : State) (a : Word) : (s.setPc a).now = s.now := rfl
@[simp] theorem State.setPc_rand (s : State) (a : Word) : (s.setPc a).rand = s.rand := rfl
@[simp] theorem State.setPc_params (s : State) (a : Word) : (s.setPc a).params = s.params := rfl
@[simp] theorem State.setPc_script (s : State) (a : Word) : (s.setPc a).script = s.script := rfl
@[simp] theorem State.setPc_turn (s : State) (a : Word) : (s.setPc a).turn = s.turn := rfl

/-! ## State.setDt -/

@[simp] theorem State.setDt_v (s : State) (b : Byte) : (s.setDt b).v = s.v := rfl
@[simp] theorem State.setDt_i (s : State) (b : Byte) : (s.setDt b).i = s.i := rfl
@[simp] theorem State.setDt_pc (s : State) (b : Byte) : (s.setDt b).pc = s.pc := rfl
@[simp] theorem State.setDt_sp (s : State) (b : Byte) : (s.setDt b).sp = s.sp := rfl
@[simp] theorem State.setDt_stack (s : State) (b : Byte) : (s.setDt b).stack = s.stack := rfl
@[simp] theorem State.setDt_dt (s : State) (b : Byte) : (s.setDt b).dt = b := rfl
@[simp] theorem State.setDt_st (s : State) (b : Byte) : (s.setDt b).st = s.st := rfl
@[simp] theorem State.setDt_lastTick (s : State) (b : Byte) : (s.setDt b).lastTick = s.lastTick := rfl
@[simp] theorem State.setDt_fb (s : State) (b : Byte) : (s.setDt b).fb = s.fb := rfl
@[simp] theorem State.setDt_fbChanged (s : State) (b : Byte) : (s.setDt b).fbChanged = s.fbChanged := rfl
@[simp] theorem State.setDt_mem (s : State) (b : Byte) : (s.setDt b).mem = s.mem := rfl
@[simp] theorem State.setDt_mode (s : State) (b : Byte) : (s.setDt b).mode = s.mode := rfl
@[simp] theorem State.setDt_faultCode (s : State) (b : Byte) : (s.setDt b).faultCode = s.faultCode := rfl
@[simp] theorem State.setDt_faultPc (s : State) (b : Byte) : (s.setDt b).faultPc = s.faultPc := rfl
@[simp] theorem State.setDt_faultOpcode (s : State) (b : Byte) : (s.setDt b).faultOpcode = s.faultOpcode := rfl
@[simp] theorem State.setDt_faultAddr (s : State) (b : Byte) : (s.setDt b).faultAddr = s.faultAddr := rfl
@[simp] theorem State.setDt_diag (s : State) (b : Byte) : (s.setDt b).diag = s.diag := rfl
@[simp] theorem State.setDt_keys (s : State) (b : Byte) : (s.setDt b).keys = s.keys := rfl
@[simp] theorem State.setDt_now (s : State) (b : Byte) : (s.setDt b).now = s.now := rfl
@[simp] theorem State.setDt_rand (s : State) (b : Byte) : (s.setDt b).rand = s.rand := rfl
@[simp] theorem State.setDt_params (s : State) (b : Byte) : (s.setDt b).params = s.params := rfl
@[simp] theorem State.setDt_script (s : State) (b : Byte) : (s.setDt b).script = s.script := rfl
@[simp] theorem State.setDt_turn (s : State) (b : Byte) : (s.setDt b).turn = s.turn := rfl

/-! ## State.setSt -/

@[simp] theorem State.setSt_v (s : State) (b : Byte) : (s.setSt b).v = s.v := rfl
@[simp] theorem State.setSt_i (s : State) (b : Byte) : (s.setSt b).i = s.i := rfl
@[simp] theorem State.setSt_pc (s : State) (b : Byte) : (s.setSt b).pc = s.pc := rfl
@[simp] theorem State.setSt_sp (s : State) (b : Byte) : (s.setSt b).sp = s.sp := rfl
@[simp] theorem State.setSt_stack (s : State) (b : Byte) : (s.setSt b).stack = s.stack := rfl
@[simp] theorem State.setSt_dt (s : State) (b : Byte) : (s.setSt b).dt = s.dt := rfl
@[simp] theorem State.setSt_st (s : State) (b : Byte) : (s.setSt b).st = b := rfl
@[simp] theorem State.setSt_lastTick (s : State) (b : Byte) : (s.setSt b).lastTick = s.lastTick := rfl
@[simp] theorem State.setSt_fb (s : State) (b : Byte) : (s.setSt b).fb = s.fb := rfl
@[simp] theorem State.setSt_fbChanged (s : State) (b : Byte) : (s.setSt b).fbChanged = s.fbChanged := rfl
@[simp] theorem State.setSt_mem (s : State) (b : Byte) : (s.setSt b).mem = s.mem := rfl
@[simp] theorem State.setSt_mode (s : State) (b : Byte) : (s.setSt b).mode = s.mode := rfl
@[simp] theorem State.setSt_faultCode (s : State) (b : Byte) : (s.setSt b).faultCode = s.faultCode := rfl
@[simp] theorem State.setSt_faultPc (s : State) (b : Byte) : (s.setSt b).faultPc = s.faultPc := rfl
@[simp] theorem State.setSt_faultOpcode (s : State) (b : Byte) : (s.setSt b).faultOpcode = s.faultOpcode := rfl
@[simp] theorem State.setSt_faultAddr (s : State) (b : Byte) : (s.setSt b).faultAddr = s.faultAddr := rfl
@[simp] theorem State.setSt_diag (s : State) (b : Byte) : (s.setSt b).diag = s.diag := rfl
@[simp] theorem State.setSt_keys (s : State) (b : Byte) : (s.setSt b).keys = s.keys := rfl
@[simp] theorem State.setSt_now (s : State) (b : Byte) : (s.setSt b).now = s.now := rfl
@[simp] theorem State.setSt_rand (s : State) (b : Byte) : (s.setSt b).rand = s.rand := rfl
@[simp] theorem State.setSt_params (s : State) (b : Byte) : (s.setSt b).params = s.params := rfl
@[simp] theorem State.setSt_script (s : State) (b : Byte) : (s.setSt b).script = s.script := rfl
@[simp] theorem State.setSt_turn (s : State) (b : Byte) : (s.setSt b).turn = s.turn := rfl

/-! ## State.setFb -/

@[simp] theorem State.setFb_v (s : State) (f : FrameBuffer) : (s.setFb f).v = s.v := rfl
@[simp] theorem State.setFb_i (s : State) (f : FrameBuffer) : (s.setFb f).i = s.i := rfl
@[simp] theorem State.setFb_pc (s : State) (f : FrameBuffer) : (s.setFb f).pc = s.pc := rfl
@[simp] theorem State.setFb_sp (s : State) (f : FrameBuffer) : (s.setFb f).sp = s.sp := rfl
@[simp] theorem State.setFb_stack (s : State) (f : FrameBuffer) : (s.setFb f).stack = s.stack := rfl
@[simp] theorem State.setFb_dt (s : State) (f : FrameBuffer) : (s.setFb f).dt = s.dt := rfl
@[simp] theorem State.setFb_st (s : State) (f : FrameBuffer) : (s.setFb f).st = s.st := rfl
@[simp] theorem State.setFb_lastTick (s : State) (f : FrameBuffer) : (s.setFb f).lastTick = s.lastTick := rfl
@[simp] theorem State.setFb_fb (s : State) (f : FrameBuffer) : (s.setFb f).fb = f := rfl
@[simp] theorem State.setFb_fbChanged (s : State) (f : FrameBuffer) : (s.setFb f).fbChanged = true := rfl
@[simp] theorem State.setFb_mem (s : State) (f : FrameBuffer) : (s.setFb f).mem = s.mem := rfl
@[simp] theorem State.setFb_mode (s : State) (f : FrameBuffer) : (s.setFb f).mode = s.mode := rfl
@[simp] theorem State.setFb_faultCode (s : State) (f : FrameBuffer) : (s.setFb f).faultCode = s.faultCode := rfl
@[simp] theorem State.setFb_faultPc (s : State) (f : FrameBuffer) : (s.setFb f).faultPc = s.faultPc := rfl
@[simp] theorem State.setFb_faultOpcode (s : State) (f : FrameBuffer) : (s.setFb f).faultOpcode = s.faultOpcode := rfl
@[simp] theorem State.setFb_faultAddr (s : State) (f : FrameBuffer) : (s.setFb f).faultAddr = s.faultAddr := rfl
@[simp] theorem State.setFb_diag (s : State) (f : FrameBuffer) : (s.setFb f).diag = s.diag := rfl
@[simp] theorem State.setFb_keys (s : State) (f : FrameBuffer) : (s.setFb f).keys = s.keys := rfl
@[simp] theorem State.setFb_now (s : State) (f : FrameBuffer) : (s.setFb f).now = s.now := rfl
@[simp] theorem State.setFb_rand (s : State) (f : FrameBuffer) : (s.setFb f).rand = s.rand := rfl
@[simp] theorem State.setFb_params (s : State) (f : FrameBuffer) : (s.setFb f).params = s.params := rfl
@[simp] theorem State.setFb_script (s : State) (f : FrameBuffer) : (s.setFb f).script = s.script := rfl
@[simp] theorem State.setFb_turn (s : State) (f : FrameBuffer) : (s.setFb f).turn = s.turn := rfl

/-! ## State.storeBytes -/

@[simp] theorem State.storeBytes_v (s : State) (a : Nat) (bs : List Byte) : (s.storeBytes a bs).v = s.v := rfl
@[simp] theorem State.storeBytes_i (s : State) (a : Nat) (bs : List Byte) : (s.storeBytes a bs).i = s.i := rfl
@[simp] theorem State.storeBytes_pc (s : State) (a : Nat) (bs : List Byte) : (s.storeBytes a bs).pc = s.pc := rfl
@[simp] theorem State.storeBytes_sp (s : State) (a : Nat) (bs : List Byte) : (s.storeBytes a bs).sp = s.sp := rfl
@[simp] theorem State.storeBytes_stack (s : State) (a : Nat) (bs : List Byte) : (s.storeBytes a bs).stack = s.stack := rfl
@[simp] theorem State.storeBytes_dt (s : State) (a : Nat) (bs : List Byte) : (s.storeBytes a bs).dt = s.dt := rfl
@[simp] theorem State.storeBytes_st (s : State) (a : Nat) (bs : List Byte) : (s.storeBytes a bs).st = s.st := rfl
@[simp] theorem State.storeBytes_lastTick (s : State) (a : Nat) (bs : List Byte) : (s.storeBytes a bs).lastTick = s.lastTick := rfl
@[simp] theorem State.storeBytes_fb (s : State) (a : Nat) (bs : List Byte) : (s.storeBytes a bs).fb = s.fb := rfl
@[simp] theorem State.storeBytes_fbChanged (s : State) (a : Nat) (bs : List Byte) : (s.storeBytes a bs).fbChanged = s.fbChanged := rfl
@[simp] theorem State.storeBytes_mem (s : State) (a : Nat) (bs : List Byte) : (s.storeBytes a bs).mem = Memory.writeBytes s.params.font s.mem a bs := rfl
@[simp] theorem State.storeBytes_mode (s : State) (a : Nat) (bs : List Byte) : (s.storeBytes a bs).mode = s.mode := rfl
@[simp] theorem State.storeBytes_faultCode (s : State) (a : Nat) (bs : List Byte) : (s.storeBytes a bs).faultCode = s.faultCode := rfl
@[simp] theorem State.storeBytes_faultPc (s : State) (a : Nat) (bs : List Byte) : (s.storeBytes a bs).faultPc = s.faultPc := rfl
@[simp] theorem State.storeBytes_faultOpcode (s : State) (a : Nat) (bs : List Byte) : (s.storeBytes a bs).faultOpcode = s.faultOpcode := rfl
@[simp] theorem State.storeBytes_faultAddr (s : State) (a : Nat) (bs : List Byte) : (s.storeBytes a bs).faultAddr = s.faultAddr := rfl
@[simp] theorem State.storeBytes_diag (s : State) (a : Nat) (bs : List Byte) : (s.storeBytes a bs).diag = s.diag := rfl
@[simp] theorem State.storeBytes_keys (s : State) (a : Nat) (bs : List Byte) : (s.storeBytes a bs).keys = s.keys := rfl
@[simp] theorem State.storeBytes_now (s : State) (a : Nat) (bs : List Byte) : (s.storeBytes a bs).now = s.now := rfl
@[simp] theorem State.storeBytes_rand (s : State) (a : Nat) (bs : List Byte) : (s.storeBytes a bs).rand = s.rand := rfl
@[simp] theorem State.storeBytes_params (s : State) (a : Nat) (bs : List Byte) : (s.storeBytes a bs).params = s.params := rfl
@[simp] theorem State.storeBytes_script (s : State) (a : Nat) (bs : List Byte) : (s.storeBytes a bs).script = s.script := rfl
@[simp] theorem State.storeBytes_turn (s : State) (a : Nat) (bs : List Byte) : (s.storeBytes a bs).turn = s.turn := rfl

/-! ## State.resolve -/

@[simp] theorem State.resolve_v (s : State) (d : Directive) : (s.resolve d).v = s.v := rfl
@[simp] theorem State.resolve_i (s : State) (d : Directive) : (s.resolve d).i = s.i := rfl
@[simp] theorem State.resolve_pc (s : State) (d : Directive) : (s.resolve d).pc = d.target s.pc := rfl
@[simp] theorem State.resolve_sp (s : State) (d : Directive) : (s.resolve d).sp = s.sp := rfl
@[simp] theorem State.resolve_stack (s : State) (d : Directive) : (s.resolve d).stack = s.stack := rfl
@[simp] theorem State.resolve_dt (s : State) (d : Directive) : (s.resolve d).dt = s.dt := rfl
@[simp] theorem State.resolve_st (s : State) (d : Directive) : (s.resolve d).st = s.st := rfl
@[simp] theorem State.resolve_lastTick (s : State) (d : Directive) : (s.resolve d).lastTick = s.lastTick := rfl
@[simp] theorem State.resolve_fb (s : State) (d : Directive) : (s.resolve d).fb = s.fb := rfl
@[simp] theorem State.resolve_fbChanged (s : State) (d : Directive) : (s.resolve d).fbChanged = s.fbChanged := rfl
@[simp] theorem State.resolve_mem (s : State) (d : Directive) : (s.resolve d).mem = s.mem := rfl
@[simp] theorem State.resolve_mode (s : State) (d : Directive) : (s.resolve d).mode = s.mode := rfl
@[simp] theorem State.resolve_faultCode (s : State) (d : Directive) : (s.resolve d).faultCode = s.faultCode := rfl
@[simp] theorem State.resolve_faultPc (s : State) (d : Directive) : (s.resolve d).faultPc = s.faultPc := rfl
@[simp] theorem State.resolve_faultOpcode (s : State) (d : Directive) : (s.resolve d).faultOpcode = s.faultOpcode := rfl
@[simp] theorem State.resolve_faultAddr (s : State) (d : Directive) : (s.resolve d).faultAddr = s.faultAddr := rfl
@[simp] theorem State.resolve_diag (s : State) (d : Directive) : (s.resolve d).diag = s.diag := rfl
@[simp] theorem State.resolve_keys (s : State) (d : Directive) : (s.resolve d).keys = s.keys := rfl
@[simp] theorem State.resolve_now (s : State) (d : Directive) : (s.resolve d).now = s.now := rfl
@[simp] theorem State.resolve_rand (s : State) (d : Directive) : (s.resolve d).rand = s.rand := rfl
@[simp] theorem State.resolve_params (s : State) (d : Directive) : (s.resolve d).params = s.params := rfl
@[simp] theorem State.resolve_script (s : State) (d : Directive) : (s.resolve d).script = s.script := rfl
@[simp] theorem State.resolve_turn (s : State) (d : Directive) : (s.resolve d).turn = s.turn := rfl

/-! ## State.enterFault -/

@[simp] theorem State.enterFault_v (s : State) (f : Fault) (op : Word) : (s.enterFault f op).v = s.v := rfl
@[simp] theorem State.enterFault_i (s : State) (f : Fault) (op : Word) : (s.enterFault f op).i = s.i := rfl
@[simp] theorem State.enterFault_pc (s : State) (f : Fault) (op : Word) : (s.enterFault f op).pc = s.pc := rfl
@[simp] theorem State.enterFault_sp (s : State) (f : Fault) (op : Word) : (s.enterFault f op).sp = s.sp := rfl
@[simp] theorem State.enterFault_stack (s : State) (f : Fault) (op : Word) : (s.enterFault f op).stack = s.stack := rfl
@[simp] theorem State.enterFault_dt (s : State) (f : Fault) (op : Word) : (s.enterFault f op).dt = s.dt := rfl
@[simp] theorem State.enterFault_st (s : State) (f : Fault) (op : Word) : (s.enterFault f op).st = s.st := rfl
@[simp] theorem State.enterFault_lastTick (s : State) (f : Fault) (op : Word) : (s.enterFault f op).lastTick = s.lastTick := rfl
@[simp] theorem State.enterFault_fb (s : State) (f : Fault) (op : Word) : (s.enterFault f op).fb = s.fb := rfl
@[simp] theorem State.enterFault_fbChanged (s : State) (f : Fault) (op : Word) : (s.enterFault f op).fbChanged = s.fbChanged := rfl
@[simp] theorem State.enterFault_mem (s : State) (f : Fault) (op : Word) : (s.enterFault f op).mem = s.mem := rfl
@[simp] theorem State.enterFault_mode (s : State) (f : Fault) (op : Word) : (s.enterFault f op).mode = .fault := rfl
@[simp] theorem State.enterFault_faultCode (s : State) (f : Fault) (op : Word) : (s.enterFault f op).faultCode = f.code := rfl
@[simp] theorem State.enterFault_faultPc (s : State) (f : Fault) (op : Word) : (s.enterFault f op).faultPc = s.pc := rfl
@[simp] theorem State.enterFault_faultOpcode (s : State) (f : Fault) (op : Word) : (s.enterFault f op).faultOpcode = op := rfl
@[simp] theorem State.enterFault_faultAddr (s : State) (f : Fault) (op : Word) : (s.enterFault f op).faultAddr = f.info := rfl
@[simp] theorem State.enterFault_diag (s : State) (f : Fault) (op : Word) : (s.enterFault f op).diag = s.diag := rfl
@[simp] theorem State.enterFault_keys (s : State) (f : Fault) (op : Word) : (s.enterFault f op).keys = s.keys := rfl
@[simp] theorem State.enterFault_now (s : State) (f : Fault) (op : Word) : (s.enterFault f op).now = s.now := rfl
@[simp] theorem State.enterFault_rand (s : State) (f : Fault) (op : Word) : (s.enterFault f op).rand = s.rand := rfl
@[simp] theorem State.enterFault_params (s : State) (f : Fault) (op : Word) : (s.enterFault f op).params = s.params := rfl
@[simp] theorem State.enterFault_script (s : State) (f : Fault) (op : Word) : (s.enterFault f op).script = s.script := rfl
@[simp] theorem State.enterFault_turn (s : State) (f : Fault) (op : Word) : (s.enterFault f op).turn = s.turn := rfl

/-! ## State.clearDiag -/

@[simp] theorem State.clearDiag_v (s : State) : s.clearDiag.v = s.v := rfl
@[simp] theorem State.clearDiag_i (s : State) : s.clearDiag.i = s.i := rfl
@[simp] theorem State.clearDiag_pc (s : State) : s.clearDiag.pc = s.pc := rfl
@[simp] theorem State.clearDiag_sp (s : State) : s.clearDiag.sp = s.sp := rfl
@[simp] theorem State.clearDiag_stack (s : State) : s.clearDiag.stack = s.stack := rfl
@[simp] theorem State.clearDiag_dt (s : State) : s.clearDiag.dt = s.dt := rfl
@[simp] theorem State.clearDiag_st (s : State) : s.clearDiag.st = s.st := rfl
@[simp] theorem State.clearDiag_lastTick (s : State) : s.clearDiag.lastTick = s.lastTick := rfl
@[simp] theorem State.clearDiag_fb (s : State) : s.clearDiag.fb = s.fb := rfl
@[simp] theorem State.clearDiag_fbChanged (s : State) : s.clearDiag.fbChanged = s.fbChanged := rfl
@[simp] theorem State.clearDiag_mem (s : State) : s.clearDiag.mem = s.mem := rfl
@[simp] theorem State.clearDiag_mode (s : State) : s.clearDiag.mode = s.mode := rfl
@[simp] theorem State.clearDiag_faultCode (s : State) : s.clearDiag.faultCode = s.faultCode := rfl
@[simp] theorem State.clearDiag_faultPc (s : State) : s.clearDiag.faultPc = s.faultPc := rfl
@[simp] theorem State.clearDiag_faultOpcode (s : State) : s.clearDiag.faultOpcode = s.faultOpcode := rfl
@[simp] theorem State.clearDiag_faultAddr (s : State) : s.clearDiag.faultAddr = s.faultAddr := rfl
@[simp] theorem State.clearDiag_diag (s : State) : s.clearDiag.diag = none := rfl
@[simp] theorem State.clearDiag_keys (s : State) : s.clearDiag.keys = s.keys := rfl
@[simp] theorem State.clearDiag_now (s : State) : s.clearDiag.now = s.now := rfl
@[simp] theorem State.clearDiag_rand (s : State) : s.clearDiag.rand = s.rand := rfl
@[simp] theorem State.clearDiag_params (s : State) : s.clearDiag.params = s.params := rfl
@[simp] theorem State.clearDiag_script (s : State) : s.clearDiag.script = s.script := rfl
@[simp] theorem State.clearDiag_turn (s : State) : s.clearDiag.turn = s.turn := rfl

/-! ## State.setDiag -/

@[simp] theorem State.setDiag_v (s : State) (op : Word) : (s.setDiag op).v = s.v := rfl
@[simp] theorem State.setDiag_i (s : State) (op : Word) : (s.setDiag op).i = s.i := rfl
@[simp] theorem State.setDiag_pc (s : State) (op : Word) : (s.setDiag op).pc = s.pc := rfl
@[simp] theorem State.setDiag_sp (s : State) (op : Word) : (s.setDiag op).sp = s.sp := rfl
@[simp] theorem State.setDiag_stack (s : State) (op : Word) : (s.setDiag op).stack = s.stack := rfl
@[simp] theorem State.setDiag_dt (s : State) (op : Word) : (s.setDiag op).dt = s.dt := rfl
@[simp] theorem State.setDiag_st (s : State) (op : Word) : (s.setDiag op).st = s.st := rfl
@[simp] theorem State.setDiag_lastTick (s : State) (op : Word) : (s.setDiag op).lastTick = s.lastTick := rfl
@[simp] theorem State.setDiag_fb (s : State) (op : Word) : (s.setDiag op).fb = s.fb := rfl
@[simp] theorem State.setDiag_fbChanged (s : State) (op : Word) : (s.setDiag op).fbChanged = s.fbChanged := rfl
@[simp] theorem State.setDiag_mem (s : State) (op : Word) : (s.setDiag op).mem = s.mem := rfl
@[simp] theorem State.setDiag_mode (s : State) (op : Word) : (s.setDiag op).mode = s.mode := rfl
@[simp] theorem State.setDiag_faultCode (s : State) (op : Word) : (s.setDiag op).faultCode = s.faultCode := rfl
@[simp] theorem State.setDiag_faultPc (s : State) (op : Word) : (s.setDiag op).faultPc = s.faultPc := rfl
@[simp] theorem State.setDiag_faultOpcode (s : State) (op : Word) : (s.setDiag op).faultOpcode = s.faultOpcode := rfl
@[simp] theorem State.setDiag_faultAddr (s : State) (op : Word) : (s.setDiag op).faultAddr = s.faultAddr := rfl
@[simp] theorem State.setDiag_diag (s : State) (op : Word) : (s.setDiag op).diag = some op := rfl
@[simp] theorem State.setDiag_keys (s : State) (op : Word) : (s.setDiag op).keys = s.keys := rfl
@[simp] theorem State.setDiag_now (s : State) (op : Word) : (s.setDiag op).now = s.now := rfl
@[simp] theorem State.setDiag_rand (s : State) (op : Word) : (s.setDiag op).rand = s.rand := rfl
@[simp] theorem State.setDiag_params (s : State) (op : Word) : (s.setDiag op).params = s.params := rfl
@[simp] theorem State.setDiag_script (s : State) (op : Word) : (s.setDiag op).script = s.script := rfl
@[simp] theorem State.setDiag_turn (s : State) (op : Word) : (s.setDiag op).turn = s.turn := rfl

/-! ## State.tick -/

@[simp] theorem State.tick_v (s : State) : s.tick.v = s.v := rfl
@[simp] theorem State.tick_i (s : State) : s.tick.i = s.i := rfl
@[simp] theorem State.tick_pc (s : State) : s.tick.pc = s.pc := rfl
@[simp] theorem State.tick_sp (s : State) : s.tick.sp = s.sp := rfl
@[simp] theorem State.tick_stack (s : State) : s.tick.stack = s.stack := rfl
@[simp] theorem State.tick_dt (s : State) : s.tick.dt = if s.tickDue then decTimer s.dt else s.dt := rfl
@[simp] theorem State.tick_st (s : State) : s.tick.st = if s.tickDue then decTimer s.st else s.st := rfl
@[simp] theorem State.tick_lastTick (s : State) : s.tick.lastTick = if s.tickDue then s.now else s.lastTick := rfl
@[simp] theorem State.tick_fb (s : State) : s.tick.fb = s.fb := rfl
@[simp] theorem State.tick_fbChanged (s : State) : s.tick.fbChanged = s.fbChanged := rfl
@[simp] theorem State.tick_mem (s : State) : s.tick.mem = s.mem := rfl
@[simp] theorem State.tick_mode (s : State) : s.tick.mode = s.mode := rfl
@[simp] theorem State.tick_faultCode (s : State) : s.tick.faultCode = s.faultCode := rfl
@[simp] theorem State.tick_faultPc (s : State) : s.tick.faultPc = s.faultPc := rfl
@[simp] theorem State.tick_faultOpcode (s : State) : s.tick.faultOpcode = s.faultOpcode := rfl
@[simp] theorem State.tick_faultAddr (s : State) : s.tick.faultAddr = s.faultAddr := rfl
@[simp] theorem State.tick_diag (s : State) : s.tick.diag = s.diag := rfl
@[simp] theorem State.tick_keys (s : State) : s.tick.keys = s.keys := rfl
@[simp] theorem State.tick_now (s : State) : s.tick.now = s.now := rfl
@[simp] theorem State.tick_rand (s : State) : s.tick.rand = s.rand := rfl
@[simp] theorem State.tick_params (s : State) : s.tick.params = s.params := rfl
@[simp] theorem State.tick_script (s : State) : s.tick.script = s.script := rfl
@[simp] theorem State.tick_turn (s : State) : s.tick.turn = s.turn := rfl

/-! ## State.applyAck -/

@[simp] theorem State.applyAck_v (s : State) (k : Bool) : (s.applyAck k).v = s.v := rfl
@[simp] theorem State.applyAck_i (s : State) (k : Bool) : (s.applyAck k).i = s.i := rfl
@[simp] theorem State.applyAck_pc (s : State) (k : Bool) : (s.applyAck k).pc = s.pc := rfl
@[simp] theorem State.applyAck_sp (s : State) (k : Bool) : (s.applyAck k).sp = s.sp := rfl
@[simp] theorem State.applyAck_stack (s : State) (k : Bool) : (s.applyAck k).stack = s.stack := rfl
@[simp] theorem State.applyAck_dt (s : State) (k : Bool) : (s.applyAck k).dt = s.dt := rfl
@[simp] theorem State.applyAck_st (s : State) (k : Bool) : (s.applyAck k).st = s.st := rfl
@[simp] theorem State.applyAck_lastTick (s : State) (k : Bool) : (s.applyAck k).lastTick = s.lastTick := rfl
@[simp] theorem State.applyAck_fb (s : State) (k : Bool) : (s.applyAck k).fb = s.fb := rfl
@[simp] theorem State.applyAck_fbChanged (s : State) (k : Bool) : (s.applyAck k).fbChanged = (s.fbChanged && !k) := rfl
@[simp] theorem State.applyAck_mem (s : State) (k : Bool) : (s.applyAck k).mem = s.mem := rfl
@[simp] theorem State.applyAck_mode (s : State) (k : Bool) : (s.applyAck k).mode = s.mode := rfl
@[simp] theorem State.applyAck_faultCode (s : State) (k : Bool) : (s.applyAck k).faultCode = s.faultCode := rfl
@[simp] theorem State.applyAck_faultPc (s : State) (k : Bool) : (s.applyAck k).faultPc = s.faultPc := rfl
@[simp] theorem State.applyAck_faultOpcode (s : State) (k : Bool) : (s.applyAck k).faultOpcode = s.faultOpcode := rfl
@[simp] theorem State.applyAck_faultAddr (s : State) (k : Bool) : (s.applyAck k).faultAddr = s.faultAddr := rfl
@[simp] theorem State.applyAck_diag (s : State) (k : Bool) : (s.applyAck k).diag = s.diag := rfl
@[simp] theorem State.applyAck_keys (s : State) (k : Bool) : (s.applyAck k).keys = s.keys := rfl
@[simp] theorem State.applyAck_now (s : State) (k : Bool) : (s.applyAck k).now = s.now := rfl
@[simp] theorem State.applyAck_rand (s : State) (k : Bool) : (s.applyAck k).rand = s.rand := rfl
@[simp] theorem State.applyAck_params (s : State) (k : Bool) : (s.applyAck k).params = s.params := rfl
@[simp] theorem State.applyAck_script (s : State) (k : Bool) : (s.applyAck k).script = s.script := rfl
@[simp] theorem State.applyAck_turn (s : State) (k : Bool) : (s.applyAck k).turn = s.turn := rfl

/-! ## State.drive -/

@[simp] theorem State.drive_v (s : State) (m : Config.HostMove) : (s.drive m).v = s.v := rfl
@[simp] theorem State.drive_i (s : State) (m : Config.HostMove) : (s.drive m).i = s.i := rfl
@[simp] theorem State.drive_pc (s : State) (m : Config.HostMove) : (s.drive m).pc = s.pc := rfl
@[simp] theorem State.drive_sp (s : State) (m : Config.HostMove) : (s.drive m).sp = s.sp := rfl
@[simp] theorem State.drive_stack (s : State) (m : Config.HostMove) : (s.drive m).stack = s.stack := rfl
@[simp] theorem State.drive_dt (s : State) (m : Config.HostMove) : (s.drive m).dt = s.dt := rfl
@[simp] theorem State.drive_st (s : State) (m : Config.HostMove) : (s.drive m).st = s.st := rfl
@[simp] theorem State.drive_lastTick (s : State) (m : Config.HostMove) : (s.drive m).lastTick = s.lastTick := rfl
@[simp] theorem State.drive_fb (s : State) (m : Config.HostMove) : (s.drive m).fb = s.fb := rfl
@[simp] theorem State.drive_fbChanged (s : State) (m : Config.HostMove) : (s.drive m).fbChanged = s.fbChanged := rfl
@[simp] theorem State.drive_mem (s : State) (m : Config.HostMove) : (s.drive m).mem = s.mem := rfl
@[simp] theorem State.drive_mode (s : State) (m : Config.HostMove) : (s.drive m).mode = s.mode := rfl
@[simp] theorem State.drive_faultCode (s : State) (m : Config.HostMove) : (s.drive m).faultCode = s.faultCode := rfl
@[simp] theorem State.drive_faultPc (s : State) (m : Config.HostMove) : (s.drive m).faultPc = s.faultPc := rfl
@[simp] theorem State.drive_faultOpcode (s : State) (m : Config.HostMove) : (s.drive m).faultOpcode = s.faultOpcode := rfl
@[simp] theorem State.drive_faultAddr (s : State) (m : Config.HostMove) : (s.drive m).faultAddr = s.faultAddr := rfl
@[simp] theorem State.drive_diag (s : State) (m : Config.HostMove) : (s.drive m).diag = s.diag := rfl
@[simp] theorem State.drive_keys (s : State) (m : Config.HostMove) : (s.drive m).keys = m.keys := rfl
@[simp] theorem State.drive_now (s : State) (m : Config.HostMove) : (s.drive m).now = s.now + m.wait := rfl
@[simp] theorem State.drive_rand (s : State) (m : Config.HostMove) : (s.drive m).rand = m.rand := rfl
@[simp] theorem State.drive_params (s : State) (m : Config.HostMove) : (s.drive m).params = s.params := rfl
@[simp] theorem State.drive_script (s : State) (m : Config.HostMove) : (s.drive m).script = s.script := rfl
@[simp] theorem State.drive_turn (s : State) (m : Config.HostMove) : (s.drive m).turn = s.turn := rfl

/-! ## State.popMove -/

@[simp] theorem State.popMove_v (s : State) : s.popMove.v = s.v := rfl
@[simp] theorem State.popMove_i (s : State) : s.popMove.i = s.i := rfl
@[simp] theorem State.popMove_pc (s : State) : s.popMove.pc = s.pc := rfl
@[simp] theorem State.popMove_sp (s : State) : s.popMove.sp = s.sp := rfl
@[simp] theorem State.popMove_stack (s : State) : s.popMove.stack = s.stack := rfl
@[simp] theorem State.popMove_dt (s : State) : s.popMove.dt = s.dt := rfl
@[simp] theorem State.popMove_st (s : State) : s.popMove.st = s.st := rfl
@[simp] theorem State.popMove_lastTick (s : State) : s.popMove.lastTick = s.lastTick := rfl
@[simp] theorem State.popMove_fb (s : State) : s.popMove.fb = s.fb := rfl
@[simp] theorem State.popMove_fbChanged (s : State) : s.popMove.fbChanged = s.fbChanged := rfl
@[simp] theorem State.popMove_mem (s : State) : s.popMove.mem = s.mem := rfl
@[simp] theorem State.popMove_mode (s : State) : s.popMove.mode = s.mode := rfl
@[simp] theorem State.popMove_faultCode (s : State) : s.popMove.faultCode = s.faultCode := rfl
@[simp] theorem State.popMove_faultPc (s : State) : s.popMove.faultPc = s.faultPc := rfl
@[simp] theorem State.popMove_faultOpcode (s : State) : s.popMove.faultOpcode = s.faultOpcode := rfl
@[simp] theorem State.popMove_faultAddr (s : State) : s.popMove.faultAddr = s.faultAddr := rfl
@[simp] theorem State.popMove_diag (s : State) : s.popMove.diag = s.diag := rfl
@[simp] theorem State.popMove_keys (s : State) : s.popMove.keys = s.keys := rfl
@[simp] theorem State.popMove_now (s : State) : s.popMove.now = s.now := rfl
@[simp] theorem State.popMove_rand (s : State) : s.popMove.rand = s.rand := rfl
@[simp] theorem State.popMove_params (s : State) : s.popMove.params = s.params := rfl
@[simp] theorem State.popMove_script (s : State) : s.popMove.script = s.script.tail := rfl
@[simp] theorem State.popMove_turn (s : State) : s.popMove.turn = s.turn + 1 := rfl

/-! ## Derived updates -/

theorem State.setFlag_eq (s : State) (f : Byte) : s.setFlag f = s.setV 15 f := rfl

theorem State.done_eq (s : State) (d : Directive) : s.done d = .next (s.resolve d) := rfl

theorem State.raise_eq (s : State) (f : Fault) (ins : Instr) :
    s.raise f ins = .next (s.enterFault f (encode ins)) := rfl

/-! ## Reading a register after writing one -/

theorem State.getV_eq (s : State) (r : Fin 16) : s.getV r = s.v[r] := rfl

theorem State.getV_setV (s : State) (x r : Fin 16) (b : Byte) :
    (s.setV x b).getV r = if r = x then b else s.getV r := by
  simp only [State.getV, State.setV, Fin.getElem_fin, Vector.getElem_set, Fin.ext_iff, eq_comm]

@[simp] theorem State.getV_setV_same (s : State) (x : Fin 16) (b : Byte) :
    (s.setV x b).getV x = b := by simp [State.getV_setV]

theorem State.getV_setV_ne (s : State) {x r : Fin 16} (b : Byte) (h : r ≠ x) :
    (s.setV x b).getV r = s.getV r := by simp [State.getV_setV, h]

/-- Updates other than a register write keep every register. -/
theorem State.getV_congr {s t : State} (h : t.v = s.v) (r : Fin 16) : t.getV r = s.getV r := by
  rw [State.getV, State.getV, h]

/-- A byte reads the same where memory and font are the same. -/
theorem State.readByte_congr {s t : State} (hm : t.mem = s.mem) (hp : t.params = s.params) (a : Nat) :
    t.readByte a = s.readByte a := by
  rw [State.readByte, State.readByte, hm, hp]

end Sys2Proof.Machine
end

