-- ==== Sys2Proof/Laws/Ops.lean ====
section
/-! SUPPORT. One lemma per shared operation that says everything it can do, to be cited instead of
unfolding it. -/

namespace Sys2Proof.Machine

open Sys2Proof

/-! ## Addresses and directives -/

theorem wrap12_toNat (n : Nat) : (wrap12 n).toNat = n % 4096 := by
  simp only [wrap12, BitVec.toNat_ofNat]; omega

theorem absAddr_toNat (nnn : Addr12) : (absAddr nnn).toNat = nnn.toNat := by
  have := nnn.isLt
  simp only [absAddr, BitVec.toNat_setWidth]; omega

theorem Directive.target_next (pc : Word) : (Directive.next.target pc).toNat = (pc.toNat + 2) % 4096 :=
  wrap12_toNat _

theorem Directive.target_skip (pc : Word) : (Directive.skip.target pc).toNat = (pc.toNat + 4) % 4096 :=
  wrap12_toNat _

theorem Directive.target_skipIf (c : Bool) (pc : Word) :
    ((skipIf c).target pc).toNat = (pc.toNat + if c then 4 else 2) % 4096 := by
  cases c <;> simp [skipIf, Directive.target, wrap12_toNat]

@[simp] theorem Directive.target_jump (a pc : Word) : (Directive.jump a).target pc = a := rfl

@[simp] theorem Directive.target_block (pc : Word) : Directive.block.target pc = pc := rfl

/-! ## The return stack -/

/-- A push below capacity writes the entry at SP and increments SP. -/
theorem State.push?_of_lt (s : State) (a : Word) (h : s.sp.val < 16) :
    s.push? a = some { s with stack := s.stack.set s.sp.val a, sp := ⟨s.sp.val + 1, by omega⟩ } := by
  rw [State.push?, dif_pos h]

/-- A push at capacity does not happen. -/
theorem State.push?_full (s : State) (a : Word) (h : s.sp = 16) : s.push? a = none := by
  rw [State.push?, dif_neg (by simp [h])]

/-- A pop of a nonempty stack decrements SP, reads the entry there and clears nothing. -/
theorem State.pop?_of_pos (s : State) (h : 0 < s.sp.val) :
    s.pop? = some ({ s with sp := ⟨s.sp.val - 1, by omega⟩ }, s.stack[s.sp.val - 1]'(by omega)) := by
  rw [State.pop?, dif_pos h]

/-- A pop of the empty stack does not happen. -/
theorem State.pop?_empty (s : State) (h : s.sp = 0) : s.pop? = none := by
  rw [State.pop?, dif_neg (by simp [h])]

/-! ## Flag and destination -/

/-- `writeResult` writes registers only. -/
theorem State.writeResult_eq (s : State) (x : Fin 16) (a f : Byte) :
    ∃ v, s.writeResult x a f = { s with v := v } := by
  unfold State.writeResult
  split <;> exact ⟨_, rfl⟩

/-- What every register holds after `writeResult`. -/
theorem State.getV_writeResult (s : State) (x r : Fin 16) (a f : Byte) :
    (s.writeResult x a f).getV r =
      match s.params.vfAlias with
      | .asWritten => if r = x then a else if r = 15 then f else s.getV r
      | .snapshotFlagLast => if r = 15 then f else if r = x then a else s.getV r := by
  cases h : s.params.vfAlias <;> simp [State.writeResult, h, State.setFlag_eq, State.getV_setV]

/-- `writeShift` writes registers only. -/
theorem State.writeShift_eq (s : State) (x : Fin 16) (g : Byte → Byte) (f : Byte) :
    ∃ v, s.writeShift x g f = { s with v := v } := by
  unfold State.writeShift
  split <;> exact ⟨_, rfl⟩

/-- What every register holds after `writeShift`: under `as_written` with x = F the flag itself is
shifted. -/
theorem State.getV_writeShift (s : State) (x r : Fin 16) (g : Byte → Byte) (f : Byte) :
    (s.writeShift x g f).getV r =
      match s.params.vfAlias with
      | .asWritten =>
        if r = x then g (if x = 15 then f else s.getV x) else if r = 15 then f else s.getV r
      | .snapshotFlagLast => if r = 15 then f else if r = x then g (s.getV x) else s.getV r := by
  cases h : s.params.vfAlias <;> simp [State.writeShift, h, State.setFlag_eq, State.getV_setV]

/-! ## Register blocks -/

/-- `loadRegs` writes registers only. -/
theorem State.loadRegs_eq (s : State) (x : Fin 16) (base : Nat) :
    ∃ v, s.loadRegs x base = { s with v := v } := ⟨_, rfl⟩

/-- `loadRegs` loads V0..Vx from memory and keeps the registers above Vx. -/
theorem State.getV_loadRegs (s : State) (x r : Fin 16) (base : Nat) :
    (s.loadRegs x base).getV r =
      if r.val ≤ x.val then s.readByte (base + r.val) else s.getV r := by
  simp [State.loadRegs, State.getV]

theorem State.regBlock_length (s : State) (x : Fin 16) : (s.regBlock x).length = x.val + 1 := by
  simp only [State.regBlock, List.length_take, Vector.length_toList]; omega

theorem State.regBlock_get (s : State) (x r : Fin 16) (h : r.val ≤ x.val) :
    (s.regBlock x)[r.val]? = some (s.getV r) := by
  simp [State.regBlock, State.getV, show r.val < x.val + 1 by omega]

/-! ## Keys -/

/-- `lowestKey` answers the least pressed key. -/
theorem State.lowestKey_some (s : State) (k : Nat) :
    s.lowestKey = some k ↔ k < 16 ∧ s.keyDown k = true ∧ ∀ j < k, s.keyDown j = false := by
  simp only [State.lowestKey, List.find?_range_eq_some, List.mem_range, Bool.not_eq_true']
  tauto

/-- `lowestKey` answers nothing exactly when no key is pressed. -/
theorem State.lowestKey_none (s : State) : s.lowestKey = none ↔ ∀ k < 16, s.keyDown k = false := by
  simp [State.lowestKey]

/-! ## Fetch -/

/-- Everything a fetch can do (R41): the alignment fault, then the bound, then the big-endian word. -/
theorem State.fetch_cases (s : State) :
    (s.pc.getLsbD 0 = true ∧ s.params.allowOddPc = false ∧ s.fetch = .error .pcMisaligned) ∨
    (¬(s.pc.getLsbD 0 = true ∧ s.params.allowOddPc = false) ∧ 0xFFF ≤ s.pc.toNat ∧
      s.fetch = .error (.memBounds s.pc)) ∨
    (¬(s.pc.getLsbD 0 = true ∧ s.params.allowOddPc = false) ∧ s.pc.toNat < 0xFFF ∧
      s.fetch = .ok (wordOfBytes (s.readByte s.pc.toNat) (s.readByte (s.pc.toNat + 1)))) := by
  unfold State.fetch
  by_cases h : s.pc.getLsbD 0 = true ∧ s.params.allowOddPc = false
  · left; simp [h.1, h.2]
  · have h' : (s.pc.getLsbD 0 && !s.params.allowOddPc) = false := by
      simpa using fun h1 => by simpa [h1] using h
    rw [h']
    rcases Nat.lt_or_ge s.pc.toNat 0xFFF with hp | hp
    · exact .inr (.inr ⟨h, hp, by simp; omega⟩)
    · exact .inr (.inl ⟨h, hp, by simp; omega⟩)

/-! ## Outcomes -/

/-- An outcome mapped by `f` is a next state exactly when the outcome is, and then it is its image. -/
theorem mapNext_eq_next (f : State → State) (o : Outcome State) (t : State) :
    mapNext f o = .next t ↔ ∃ u, o = .next u ∧ t = f u := by
  cases o <;> simp [mapNext, eq_comm]

/-! ## Timers -/

/-- A timer counts down by one and stops at 0 (R23). -/
theorem decTimer_toNat (b : Byte) : (decTimer b).toNat = b.toNat - 1 := by
  unfold decTimer
  split
  · next h => subst h; rfl
  · next h =>
    have h0 : b.toNat ≠ 0 := fun e => h (BitVec.eq_of_toNat_eq (by simpa using e))
    have := b.isLt
    simp only [BitVec.toNat_sub]
    simp; omega

end Sys2Proof.Machine
end

