-- ==== Sys2Proof/Laws/PerInstr.lean ====
section
/-! SUPPORT. The family OpcodeRow: the word of every instruction lies in its own row of
spec/opcode_table.json and carries no bit the instruction ignores. One lemma per constructor. -/

namespace Sys2Proof.Laws.OpcodeRow

open Sys2Proof

/-- The word the encoder gives the instruction has the fixed bits of its row (match and mask, R55), and
its ignored bits are 0 (R54, R57, R62). -/
def Statement (i : Instr) : Prop :=
  encode i &&& (opcodeRow i).2 = (opcodeRow i).1 ∧ encode i &&& usedBits i = encode i

/-- Format NNN keeps its nibble n1. -/
theorem nnn_row (n1 : BitVec 4) (nnn : Addr12) : encodeNnn n1 nnn &&& 0xF000#16 = n1 ++ 0#12 := by
  apply BitVec.eq_of_getLsbD_eq
  intro i hi
  simp only [encodeNnn, BitVec.getLsbD_and, BitVec.getLsbD_append]
  interval_cases i <;> simp

/-- Format XKK keeps its nibble n1. -/
theorem xkk_row (n1 : BitVec 4) (x : Fin 16) (kk : Byte) :
    encodeXkk n1 x kk &&& 0xF000#16 = n1 ++ 0#12 := by
  apply BitVec.eq_of_getLsbD_eq
  intro i hi
  simp only [encodeXkk, BitVec.getLsbD_and, BitVec.getLsbD_append]
  interval_cases i <;> simp

/-- Format XFN keeps its nibble n1 and its function code. -/
theorem xfn_row (n1 : BitVec 4) (x : Fin 16) (kk : Byte) :
    encodeXkk n1 x kk &&& 0xF0FF#16 = n1 ++ 0#4 ++ kk := by
  apply BitVec.eq_of_getLsbD_eq
  intro i hi
  simp only [encodeXkk, BitVec.getLsbD_and, BitVec.getLsbD_append]
  interval_cases i <;> simp

/-- Format XYN keeps its nibble n1. -/
theorem xyn_row (n1 : BitVec 4) (x y n : Fin 16) :
    encodeXyn n1 x y n &&& 0xF000#16 = n1 ++ 0#12 := by
  apply BitVec.eq_of_getLsbD_eq
  intro i hi
  simp only [encodeXyn, BitVec.getLsbD_and, BitVec.getLsbD_append]
  interval_cases i <;> simp

/-- Format XYN with a function code keeps n1 and the code. -/
theorem xyf_row (n1 : BitVec 4) (x y n : Fin 16) :
    encodeXyn n1 x y n &&& 0xF00F#16 = n1 ++ 0#8 ++ (BitVec.ofFin n : BitVec 4) := by
  apply BitVec.eq_of_getLsbD_eq
  intro i hi
  simp only [encodeXyn, BitVec.getLsbD_and, BitVec.getLsbD_append]
  interval_cases i <;> simp

/-- An ignored n of 0 stays out of the word. -/
theorem xy0_used (n1 : BitVec 4) (x y : Fin 16) :
    encodeXyn n1 x y 0 &&& 0xFFF0#16 = encodeXyn n1 x y 0 := by
  apply BitVec.eq_of_getLsbD_eq
  intro i hi
  simp only [encodeXyn, BitVec.getLsbD_and, BitVec.getLsbD_append]
  interval_cases i <;> simp

/-- An ignored y of 0 stays out of the word. -/
theorem x0n_used (n1 : BitVec 4) (x n : Fin 16) :
    encodeXyn n1 x 0 n &&& 0xFF0F#16 = encodeXyn n1 x 0 n := by
  apply BitVec.eq_of_getLsbD_eq
  intro i hi
  simp only [encodeXyn, BitVec.getLsbD_and, BitVec.getLsbD_append]
  interval_cases i <;> simp

/-- An instruction that ignores no bit. -/
theorem all_used (w : Word) : w &&& 0xFFFF#16 = w := by
  have : (0xFFFF#16) = BitVec.allOnes 16 := by decide
  rw [this, BitVec.and_allOnes]

theorem cls : Statement .cls := ⟨by decide, by decide⟩

theorem ret : Statement .ret := ⟨by decide, by decide⟩

theorem jp (nnn : Addr12) : Statement (.jp nnn) := ⟨nnn_row _ nnn, all_used _⟩

theorem call (nnn : Addr12) : Statement (.call nnn) := ⟨nnn_row _ nnn, all_used _⟩

theorem seImm (x : Fin 16) (kk : Byte) : Statement (.seImm x kk) := ⟨xkk_row _ x kk, all_used _⟩

theorem sneImm (x : Fin 16) (kk : Byte) : Statement (.sneImm x kk) := ⟨xkk_row _ x kk, all_used _⟩

theorem seReg (x : Fin 16) (y : Fin 16) : Statement (.seReg x y) := ⟨xyn_row _ x y 0, xy0_used _ x y⟩

theorem ldImm (x : Fin 16) (kk : Byte) : Statement (.ldImm x kk) := ⟨xkk_row _ x kk, all_used _⟩

theorem addImm (x : Fin 16) (kk : Byte) : Statement (.addImm x kk) := ⟨xkk_row _ x kk, all_used _⟩

theorem ldReg (x : Fin 16) (y : Fin 16) : Statement (.ldReg x y) := ⟨xyf_row _ x y _, all_used _⟩

theorem orReg (x : Fin 16) (y : Fin 16) : Statement (.orReg x y) := ⟨xyf_row _ x y _, all_used _⟩

theorem andReg (x : Fin 16) (y : Fin 16) : Statement (.andReg x y) := ⟨xyf_row _ x y _, all_used _⟩

theorem xorReg (x : Fin 16) (y : Fin 16) : Statement (.xorReg x y) := ⟨xyf_row _ x y _, all_used _⟩

theorem addReg (x : Fin 16) (y : Fin 16) : Statement (.addReg x y) := ⟨xyf_row _ x y _, all_used _⟩

theorem subReg (x : Fin 16) (y : Fin 16) : Statement (.subReg x y) := ⟨xyf_row _ x y _, all_used _⟩

theorem shr (x : Fin 16) : Statement (.shr x) := ⟨xyf_row _ x 0 _, x0n_used _ x _⟩

theorem subnReg (x : Fin 16) (y : Fin 16) : Statement (.subnReg x y) := ⟨xyf_row _ x y _, all_used _⟩

theorem shl (x : Fin 16) : Statement (.shl x) := ⟨xyf_row _ x 0 _, x0n_used _ x _⟩

theorem sneReg (x : Fin 16) (y : Fin 16) : Statement (.sneReg x y) := ⟨xyn_row _ x y 0, xy0_used _ x y⟩

theorem ldI (nnn : Addr12) : Statement (.ldI nnn) := ⟨nnn_row _ nnn, all_used _⟩

theorem jpV0 (nnn : Addr12) : Statement (.jpV0 nnn) := ⟨nnn_row _ nnn, all_used _⟩

theorem rnd (x : Fin 16) (kk : Byte) : Statement (.rnd x kk) := ⟨xkk_row _ x kk, all_used _⟩

theorem drw (x : Fin 16) (y : Fin 16) (n : Fin 16) : Statement (.drw x y n) := ⟨xyn_row _ x y n, all_used _⟩

theorem skp (x : Fin 16) : Statement (.skp x) := ⟨xfn_row _ x _, all_used _⟩

theorem sknp (x : Fin 16) : Statement (.sknp x) := ⟨xfn_row _ x _, all_used _⟩

theorem ldVxDt (x : Fin 16) : Statement (.ldVxDt x) := ⟨xfn_row _ x _, all_used _⟩

theorem ldVxK (x : Fin 16) : Statement (.ldVxK x) := ⟨xfn_row _ x _, all_used _⟩

theorem ldDtVx (x : Fin 16) : Statement (.ldDtVx x) := ⟨xfn_row _ x _, all_used _⟩

theorem ldStVx (x : Fin 16) : Statement (.ldStVx x) := ⟨xfn_row _ x _, all_used _⟩

theorem addI (x : Fin 16) : Statement (.addI x) := ⟨xfn_row _ x _, all_used _⟩

theorem ldF (x : Fin 16) : Statement (.ldF x) := ⟨xfn_row _ x _, all_used _⟩

theorem ldB (x : Fin 16) : Statement (.ldB x) := ⟨xfn_row _ x _, all_used _⟩

theorem ldMemVx (x : Fin 16) : Statement (.ldMemVx x) := ⟨xfn_row _ x _, all_used _⟩

theorem ldVxMem (x : Fin 16) : Statement (.ldVxMem x) := ⟨xfn_row _ x _, all_used _⟩

end Sys2Proof.Laws.OpcodeRow
end

