-- ==== Sys2Proof/Laws/Screen.lean ====
section
/-! SUPPORT. What drawing a sprite does, pixel by pixel: the closed form of the loops of R81. -/

namespace Sys2Proof.Machine

open Sys2Proof

theorem FrameBuffer.get_toggle (fb : FrameBuffer) (y y' : Fin 32) (x x' : Fin 64) :
    (fb.toggle y x).get y' x' = (fb.get y' x' ^^ (decide (y' = y) && decide (x' = x))) := by
  by_cases hy : y' = y
  · subst hy
    by_cases hx : x' = x
    · subst hx; simp [FrameBuffer.toggle, FrameBuffer.get]
    · have hx' : ¬ x.val = x'.val := fun e => hx (Fin.ext e.symm)
      simp [FrameBuffer.toggle, FrameBuffer.get, hx, Vector.getElem_set_ne, hx']
  · have hy' : ¬ y.val = y'.val := fun e => hy (Fin.ext e.symm)
    simp [FrameBuffer.toggle, FrameBuffer.get, hy, Vector.getElem_set_ne, hy']

/-- Two frame buffers are equal when every cell is. -/
theorem FrameBuffer.ext {f g : FrameBuffer} (h : ∀ y x, f.get y x = g.get y x) : f = g := by
  apply Vector.ext
  intro y hy
  apply Vector.ext
  intro x hx
  exact h ⟨y, hy⟩ ⟨x, hx⟩

@[simp] theorem FrameBuffer.get_clear (y : Fin 32) (x : Fin 64) : FrameBuffer.clear.get y x = false := by
  simp [FrameBuffer.clear, FrameBuffer.get]

/-! ## Where a pixel lands (R79) -/

/-- The row of the sprite at (x, y) that covers screen row `cy`. -/
def spriteRow (y : Nat) (cy : Fin 32) : Nat := (cy.val + 32 - y % 32) % 32

/-- The column of the sprite at (x, y) that covers screen column `cx`. -/
def spriteCol (x : Nat) (cx : Fin 64) : Nat := (cx.val + 64 - x % 64) % 64

theorem eq_pixelRow_iff (y r : Nat) (cy : Fin 32) (hr : r < 32) :
    cy = pixelRow y r ↔ spriteRow y cy = r := by
  have := cy.isLt
  rw [Fin.ext_iff, spriteRow]
  simp only [pixelRow, Fin.ofNat]
  omega

theorem eq_pixelCol_iff (x c : Nat) (cx : Fin 64) (hc : c < 64) :
    cx = pixelCol x c ↔ spriteCol x cx = c := by
  have := cx.isLt
  rw [Fin.ext_iff, spriteCol]
  simp only [pixelCol, Fin.ofNat]
  omega

/-! ## One row -/

/-- The cells that the first `k` pixels of a row touch. -/
def rowCovers (x y r : Nat) (b : Byte) (k : Nat) (cy : Fin 32) (cx : Fin 64) : Bool :=
  decide (spriteRow y cy = r) && decide (spriteCol x cx < k) && b.getLsbD (7 - spriteCol x cx)

theorem rowCovers_succ (x y r : Nat) (b : Byte) (k : Nat) (hk : k < 8) (hr : r < 32) (cy : Fin 32)
    (cx : Fin 64) :
    rowCovers x y r b (k + 1) cy cx =
      (rowCovers x y r b k cy cx ||
        (b.getLsbD (7 - k) && (decide (cy = pixelRow y r) && decide (cx = pixelCol x k)))) := by
  simp only [rowCovers, eq_pixelRow_iff y r cy hr, eq_pixelCol_iff x k cx (by omega)]
  rcases Nat.lt_trichotomy (spriteCol x cx) k with h | h | h
  · simp [h, show spriteCol x cx < k + 1 by omega, show ¬ spriteCol x cx = k by omega]
  · subst h
    cases decide (spriteRow y cy = r) <;> simp
  · simp [show ¬ spriteCol x cx < k + 1 by omega, show ¬ spriteCol x cx < k by omega,
      show ¬ spriteCol x cx = k by omega]

theorem rowCovers_at (x y r : Nat) (b : Byte) (k : Nat) (hk : k < 8) :
    rowCovers x y r b k (pixelRow y r) (pixelCol x k) = false := by
  have := (eq_pixelCol_iff x k (pixelCol x k) (by omega)).mp rfl
  simp [rowCovers, this]

/-- The first `k` pixels of a row toggle exactly the cells they cover. -/
theorem drawRow_prefix_get (x y r : Nat) (b : Byte) (acc : FrameBuffer × Bool) (k : Nat) (hk : k ≤ 8)
    (hr : r < 32) (cy : Fin 32) (cx : Fin 64) :
    ((List.range k).foldl (drawPixel x y r b) acc).1.get cy cx =
      (acc.1.get cy cx ^^ rowCovers x y r b k cy cx) := by
  induction k generalizing cy cx with
  | zero => simp [rowCovers]
  | succ k ih =>
    rw [List.range_succ, List.foldl_append, rowCovers_succ x y r b k (by omega) hr]
    have hat := rowCovers_at x y r b k (by omega)
    simp only [List.foldl_cons, List.foldl_nil, drawPixel]
    split
    · next hb =>
      rw [FrameBuffer.get_toggle, ih (by omega), hb]
      by_cases hc : cy = pixelRow y r ∧ cx = pixelCol x k
      · obtain ⟨rfl, rfl⟩ := hc; simp [hat]
      · have : (decide (cy = pixelRow y r) && decide (cx = pixelCol x k)) = false := by simpa using hc
        simp [this]
    · next hb => rw [ih (by omega)]; simp [hb]

/-- The first `k` pixels of a row collide exactly when one of the cells they cover was lit. -/
theorem drawRow_prefix_collision (x y r : Nat) (b : Byte) (acc : FrameBuffer × Bool) (k : Nat)
    (hk : k ≤ 8) (hr : r < 32) :
    ((List.range k).foldl (drawPixel x y r b) acc).2 = true ↔
      acc.2 = true ∨ ∃ cy cx, acc.1.get cy cx = true ∧ rowCovers x y r b k cy cx = true := by
  induction k with
  | zero => simp [rowCovers]
  | succ k ih =>
    rw [List.range_succ, List.foldl_append]
    have hat := rowCovers_at x y r b k (by omega)
    have hget := drawRow_prefix_get x y r b acc k (by omega) hr (pixelRow y r) (pixelCol x k)
    simp only [List.foldl_cons, List.foldl_nil, drawPixel, rowCovers_succ x y r b k (by omega) hr]
    split
    · next hb =>
      rw [Bool.or_eq_true, ih (by omega), hget, hat, Bool.xor_false]
      constructor
      · rintro ((h | ⟨cy, cx, h1, h2⟩) | h)
        · exact .inl h
        · exact .inr ⟨cy, cx, h1, by simp [h2]⟩
        · exact .inr ⟨_, _, h, by simp [hb]⟩
      · rintro (h | ⟨cy, cx, h1, h2⟩)
        · exact .inl (.inl h)
        · rw [Bool.or_eq_true] at h2
          rcases h2 with h2 | h2
          · exact .inl (.inr ⟨cy, cx, h1, h2⟩)
          · simp only [Bool.and_eq_true, decide_eq_true_eq] at h2
            obtain ⟨-, rfl, rfl⟩ := h2
            exact .inr h1
    · next hb => rw [ih (by omega)]; simp [hb]

/-! ## The whole sprite -/

/-- The sprite `rows`, its first row being row `r`, has a set bit on the cell (cy, cx). -/
def rowsCover (x y r : Nat) (rows : List Byte) (cy : Fin 32) (cx : Fin 64) : Bool :=
  decide (r ≤ spriteRow y cy) &&
    match rows[spriteRow y cy - r]? with
    | some b => decide (spriteCol x cx < 8) && b.getLsbD (7 - spriteCol x cx)
    | none => false

theorem rowsCover_cons (x y r : Nat) (b : Byte) (rest : List Byte) (cy : Fin 32) (cx : Fin 64) :
    rowsCover x y r (b :: rest) cy cx =
      (rowCovers x y r b 8 cy cx || rowsCover x y (r + 1) rest cy cx) := by
  unfold rowsCover rowCovers
  rcases Nat.lt_trichotomy (spriteRow y cy) r with h | h | h
  · simp [show ¬ r ≤ spriteRow y cy by omega, show ¬ r + 1 ≤ spriteRow y cy by omega,
      show ¬ spriteRow y cy = r by omega]
  · simp [h]
  · obtain ⟨d, hd⟩ : ∃ d, spriteRow y cy = r + 1 + d := ⟨spriteRow y cy - r - 1, by omega⟩
    have e1 : r + 1 + d - r = d + 1 := by omega
    have e2 : r + 1 + d - (r + 1) = d := by omega
    have e3 : ¬ (r + 1 + d = r) := by omega
    simp only [hd, e1, e2, List.getElem?_cons_succ, decide_eq_false e3, Bool.false_and, Bool.false_or]
    congr 1
    simp only [decide_eq_decide]
    omega

theorem rowCovers_rowsCover (x y r : Nat) (b : Byte) (rest : List Byte) (cy : Fin 32) (cx : Fin 64)
    (h : rowCovers x y r b 8 cy cx = true) : rowsCover x y (r + 1) rest cy cx = false := by
  simp only [rowCovers, Bool.and_eq_true, decide_eq_true_eq] at h
  simp [rowsCover, h.1.1]

/-- Drawing rows toggles exactly the cells the rows cover. -/
theorem drawRows_get (x y r : Nat) (rows : List Byte) (acc : FrameBuffer × Bool)
    (hr : r + rows.length ≤ 32) (cy : Fin 32) (cx : Fin 64) :
    (drawRows x y r rows acc).1.get cy cx = (acc.1.get cy cx ^^ rowsCover x y r rows cy cx) := by
  induction rows generalizing r acc with
  | nil => simp [drawRows, rowsCover]
  | cons b rest ih =>
    rw [List.length_cons] at hr
    rw [drawRows, ih (r + 1) _ (by omega), drawRow,
      drawRow_prefix_get x y r b acc 8 (by omega) (by omega), rowsCover_cons]
    cases h : rowCovers x y r b 8 cy cx
    · simp
    · simp [rowCovers_rowsCover x y r b rest cy cx h]

/-- Drawing rows collides exactly when a cell they cover was lit. -/
theorem drawRows_collision (x y r : Nat) (rows : List Byte) (acc : FrameBuffer × Bool)
    (hr : r + rows.length ≤ 32) :
    (drawRows x y r rows acc).2 = true ↔
      acc.2 = true ∨ ∃ cy cx, acc.1.get cy cx = true ∧ rowsCover x y r rows cy cx = true := by
  induction rows generalizing r acc with
  | nil => simp [drawRows, rowsCover]
  | cons b rest ih =>
    rw [List.length_cons] at hr
    rw [drawRows, ih (r + 1) _ (by omega), drawRow,
      drawRow_prefix_collision x y r b acc 8 (by omega) (by omega)]
    simp only [drawRow_prefix_get x y r b acc 8 (le_refl 8) (by omega : r < 32), rowsCover_cons]
    constructor
    · rintro ((h | ⟨cy, cx, h1, h2⟩) | ⟨cy, cx, h1, h2⟩)
      · exact .inl h
      · exact .inr ⟨cy, cx, h1, by simp [h2]⟩
      · refine .inr ⟨cy, cx, ?_, by simp [h2]⟩
        cases h : rowCovers x y r b 8 cy cx
        · simpa [h] using h1
        · rw [rowCovers_rowsCover x y r b rest cy cx h] at h2; cases h2
    · rintro (h | ⟨cy, cx, h1, h2⟩)
      · exact .inl (.inl h)
      · rw [Bool.or_eq_true] at h2
        rcases h2 with h2 | h2
        · exact .inl (.inr ⟨cy, cx, h1, h2⟩)
        · refine .inr ⟨cy, cx, ?_, h2⟩
          cases h : rowCovers x y r b 8 cy cx
          · simpa [h] using h1
          · rw [rowCovers_rowsCover x y r b rest cy cx h] at h2; cases h2

/-- The buffer after a sprite (R81): each cell XOR the sprite's bit on it. -/
theorem drawSprite_get (fb : FrameBuffer) (x y : Nat) (rows : List Byte) (h : rows.length ≤ 32)
    (cy : Fin 32) (cx : Fin 64) :
    (drawSprite fb x y rows).1.get cy cx = (fb.get cy cx ^^ rowsCover x y 0 rows cy cx) :=
  drawRows_get x y 0 rows (fb, false) (by omega) cy cx

/-- The collision of a sprite (R81): some lit cell is covered by a set bit. -/
theorem drawSprite_collision (fb : FrameBuffer) (x y : Nat) (rows : List Byte)
    (h : rows.length ≤ 32) :
    (drawSprite fb x y rows).2 = true ↔
      ∃ cy cx, fb.get cy cx = true ∧ rowsCover x y 0 rows cy cx = true := by
  have := drawRows_collision x y 0 rows (fb, false) (by omega)
  simpa [drawSprite] using this

end Sys2Proof.Machine
end

