-- ==== Sys2Proof/Tests/Slice0.lean ====
section
/-! SUPPORT. Small tests: the checks of WellFormed, decoding of words written out from R55, one cycle of
vectors of 95_test_vectors.md (W1..W10, V1..V133), and a witness for the hypotheses of every statement. -/

open Sys2Proof Sys2Proof.Machine

namespace Sys2Proof.Tests

/-! ## Helpers -/

/-- The base state of 95_test_vectors.md with a word at 0x200. -/
def placed (w : Word) : State := State.reset.withFetchWord 16 w.toNat

/-- The same with other VF_ALIAS. -/
def placedLast (w : Word) : State :=
  { placed w with params := { Config.defaultParams with vfAlias := .snapshotFlagLast } }

/-- A state with odd fetches allowed. -/
def oddState (pc : Word) : State :=
  { State.reset with pc := pc, params := { Config.defaultParams with allowOddPc := true } }

/-- The next state of an outcome. -/
def nextOf (s : State) (o : Outcome State) : State :=
  match o with
  | .next t => t
  | .fault _ => s
  | .refused _ => s

/-- The state after one cycle. -/
def after (s : State) : State := nextOf s (cycle s)

/-- FAULT(code, addr) of 95_test_vectors.md, with fault_pc and fault_opcode. -/
def faulted (t : State) (code : Byte) (addr pc op : Word) : Bool :=
  t.mode == .fault && t.faultCode == code && t.faultAddr == addr && t.faultPc == pc &&
    t.faultOpcode == op && t.pc == pc

/-- A host move that only waits. -/
def quiet : Config.HostMove := { load := none, fbAck := false, wait := 0, keys := 0#16, rand := 0#8 }

/-! ## WellFormed refuses -/

theorem test_wf_register : WellFormed.reg? 16 = none ∧ WellFormed.reg? 15 = some 15 := by decide
theorem test_wf_byte : WellFormed.byte? 256 = none ∧ WellFormed.byte? 255 = some 255#8 := by decide
theorem test_wf_address :
    WellFormed.addr? 4096 = none ∧ WellFormed.addr? 4095 = some 4095#12 := by decide
theorem test_wf_word : WellFormed.wordInRange 16 65536 = false ∧
    WellFormed.wordInRange 17 0 = false ∧ WellFormed.wordInRange 16 65535 = true := by decide
theorem test_wf_params : WellFormed.paramsOk { Config.defaultParams with clockHz := 0 } = false ∧
    WellFormed.paramsOk Config.defaultParams = true := by decide

/-! ## Decoding words written out from R55 -/

theorem test_decode_cls : decode 0b0000000011100000#16 = .ok .cls := by decide
theorem test_decode_ret : decode 0b0000000011101110#16 = .ok .ret := by decide
theorem test_decode_jp : decode 0b0001001000110100#16 = .ok (.jp 0x234#12) := by decide
theorem test_decode_call : decode 0b0010001000010000#16 = .ok (.call 0x210#12) := by decide
theorem test_decode_seImm : decode 0b0011001101000010#16 = .ok (.seImm 3 0x42#8) := by decide
theorem test_decode_sneImm : decode 0b0100001101000010#16 = .ok (.sneImm 3 0x42#8) := by decide
theorem test_decode_seReg : decode 0b0101000100100001#16 = .ok (.seReg 1 2) := by decide
theorem test_decode_ldImm : decode 0b0110101000000010#16 = .ok (.ldImm 0xA 0x02#8) := by decide
theorem test_decode_addImm : decode 0b0111101000000101#16 = .ok (.addImm 0xA 0x05#8) := by decide
theorem test_decode_ldReg : decode 0b1000000100100000#16 = .ok (.ldReg 1 2) := by decide
theorem test_decode_orReg : decode 0b1000000100100001#16 = .ok (.orReg 1 2) := by decide
theorem test_decode_andReg : decode 0b1000000100100010#16 = .ok (.andReg 1 2) := by decide
theorem test_decode_xorReg : decode 0b1000000100100011#16 = .ok (.xorReg 1 2) := by decide
theorem test_decode_addReg : decode 0b1000000100100100#16 = .ok (.addReg 1 2) := by decide
theorem test_decode_subReg : decode 0b1000000100100101#16 = .ok (.subReg 1 2) := by decide
theorem test_decode_shr : decode 0b1000000100100110#16 = .ok (.shr 1) := by decide
theorem test_decode_subnReg : decode 0b1000000100100111#16 = .ok (.subnReg 1 2) := by decide
theorem test_decode_shl : decode 0b1000000100101110#16 = .ok (.shl 1) := by decide
theorem test_decode_sneReg : decode 0b1001000100101111#16 = .ok (.sneReg 1 2) := by decide
theorem test_decode_ldI : decode 0b1010001000010000#16 = .ok (.ldI 0x210#12) := by decide
theorem test_decode_jpV0 : decode 0b1011001100000000#16 = .ok (.jpV0 0x300#12) := by decide
theorem test_decode_rnd : decode 0b1100001100001111#16 = .ok (.rnd 3 0x0F#8) := by decide
theorem test_decode_drw : decode 0b1101000000010010#16 = .ok (.drw 0 1 2) := by decide
theorem test_decode_skp : decode 0b1110000110011110#16 = .ok (.skp 1) := by decide
theorem test_decode_sknp : decode 0b1110000110100001#16 = .ok (.sknp 1) := by decide
theorem test_decode_ldVxDt : decode 0b1111001100000111#16 = .ok (.ldVxDt 3) := by decide
theorem test_decode_ldVxK : decode 0b1111001000001010#16 = .ok (.ldVxK 2) := by decide
theorem test_decode_ldDtVx : decode 0b1111010000010101#16 = .ok (.ldDtVx 4) := by decide
theorem test_decode_ldStVx : decode 0b1111010000011000#16 = .ok (.ldStVx 4) := by decide
theorem test_decode_addI : decode 0b1111010100011110#16 = .ok (.addI 5) := by decide
theorem test_decode_ldF : decode 0b1111001000101001#16 = .ok (.ldF 2) := by decide
theorem test_decode_ldB : decode 0b1111000000110011#16 = .ok (.ldB 0) := by decide
theorem test_decode_ldMemVx : decode 0b1111000101010101#16 = .ok (.ldMemVx 1) := by decide
theorem test_decode_ldVxMem : decode 0b1111001001100101#16 = .ok (.ldVxMem 2) := by decide
theorem test_decode_bytes : decodeBytes [0xD0#8, 0x12#8, 0xEE#8] = .ok (.drw 0 1 2, [0xEE#8]) ∧
    decodeBytes [0xD0#8] = .error .truncated := by decide
theorem test_table_word : decodeTableWord 16 0xF033 = some (.ldB 0) ∧
    decodeTableWord 16 0x0123 = none ∧ decodeTableWord 17 0xF033 = none := by decide

/-! ## One cycle (the vector of 95_test_vectors.md, or the rule, in each name) -/

theorem test_W2_cls :
    let t := after ({ placed 0x00E0 with fb := FrameBuffer.clear.toggle 5 5 })
    t.fb = FrameBuffer.clear ∧ t.pc = 0x202 := by decide
theorem test_V1_cls_changed :
    let t := after ({ placed 0x00E0 with fbChanged := false })
    t.fbChanged = true := by decide
theorem test_W5_drw_wraps :
    let t := after (((((placed 0xD011).storeBytes 0x300 [0xFF#8]).setI 0x300).setV 0 63).setV 1 31)
    t.fb[31][63] = true ∧ t.fb[31][6] = true ∧ t.fb[31][7] = false ∧ t.fb[0][0] = false ∧ t.getV 15 = 0 := by decide
theorem test_V9_drw_collides :
    let t := after ({ (((placed 0xDF11).storeBytes 0x300 [0x80#8]).setI 0x300).setV 15 3 with fb := FrameBuffer.clear.toggle 0 3 })
    t.fb[0][3] = false ∧ t.getV 15 = 1 := by decide
theorem test_V14_jp :
    let t := after (placed 0x1ABC)
    t.pc = 0xABC := by decide
theorem test_V19_call_wraps :
    let t := after ({ (placed 0x2400).storeBytes 0xFFE [0x24#8, 0x00#8] with pc := 0xFFE })
    t.stack[0] = 0 ∧ t.sp = 1 ∧ t.pc = 0x400 := by decide
theorem test_V18_call_overflow :
    let t := after ({ placed 0x2400 with sp := 16 })
    faulted t 1 0 0x200 0x2400 = true ∧ t.sp = 16 := by decide
theorem test_V21_ret :
    let t := after ({ placed 0x00EE with sp := 2, stack := (Vector.replicate 16 0x222#16).set 1 0x456#16 })
    t.sp = 1 ∧ t.pc = 0x456 ∧ t.stack[1] = 0x456 := by decide
theorem test_V20_ret_underflow :
    let t := after (placed 0x00EE)
    faulted t 2 0 0x200 0x00EE = true := by decide
theorem test_V23_jpV0_wraps :
    let t := after ((placed 0xBFFF).setV 0 0xFF)
    t.pc = 0x0FE := by decide
theorem test_V24_jpV0_uses_V0 :
    let t := after (((placed 0xB200).setV 0 0x01).setV 2 0x80)
    t.pc = 0x201 := by decide
theorem test_V25_se_imm :
    let t := after ((placed 0x3342).setV 3 0x42)
    t.pc = 0x204 := by decide
theorem test_V36_se_imm_wraps :
    let t := after ({ (placed 0).storeBytes 0xFFE [0x30#8, 0x00#8] with pc := 0xFFE })
    t.pc = 0x002 := by decide
theorem test_V27_sne_imm :
    let t := after ((placed 0x4342).setV 3 0x42)
    t.pc = 0x202 := by decide
theorem test_V28_sne_imm :
    let t := after ((placed 0x4300).setV 3 0x42)
    t.pc = 0x204 := by decide
theorem test_V30_se_reg :
    let t := after (((placed 0x5121).setV 1 9).setV 2 9)
    t.pc = 0x204 := by decide
theorem test_V31_se_reg :
    let t := after (((placed 0x5120).setV 1 9).setV 2 8)
    t.pc = 0x202 := by decide
theorem test_V32_sne_reg :
    let t := after (((placed 0x9120).setV 1 9).setV 2 8)
    t.pc = 0x204 := by decide
theorem test_V33_sne_reg :
    let t := after (((placed 0x912F).setV 1 9).setV 2 9)
    t.pc = 0x202 := by decide
theorem test_V38_ld_imm :
    let t := after (placed 0x6F55)
    t.getV 15 = 0x55 ∧ t.pc = 0x202 := by decide
theorem test_V39_add_imm :
    let t := after (((placed 0x7001).setV 0 0xFF).setV 15 0x77)
    t.getV 0 = 0 ∧ t.getV 15 = 0x77 := by decide
theorem test_V41_ld_reg :
    let t := after (((placed 0x8120).setV 2 9).setV 15 1)
    t.getV 1 = 9 ∧ t.getV 15 = 1 := by decide
theorem test_V42_or :
    let t := after ((((placed 0x8011).setV 0 0xF0).setV 1 0x0F).setV 15 3)
    t.getV 0 = 0xFF ∧ t.getV 15 = 3 := by decide
theorem test_V43_and :
    let t := after (((placed 0x8012).setV 0 0xF0).setV 1 0x3C)
    t.getV 0 = 0x30 := by decide
theorem test_V44_xor :
    let t := after (((placed 0x8013).setV 0 0xFF).setV 1 0x0F)
    t.getV 0 = 0xF0 := by decide
theorem test_V47_add_reg :
    let t := after (((placed 0x8014).setV 0 0xFF).setV 1 0xFF)
    t.getV 0 = 0xFE ∧ t.getV 15 = 1 := by decide
theorem test_V49_add_reg_alias :
    (after (((placed 0x8F14).setV 15 0xF0).setV 1 0x20)).getV 15 = 0x10 ∧
    (after (((placedLast 0x8F14).setV 15 0xF0).setV 1 0x20)).getV 15 = 1 := by decide
theorem test_V52_sub :
    let t := after (((placed 0x8015).setV 0 3).setV 1 5)
    t.getV 0 = 0xFD ∧ t.getV 15 = 0 := by decide
theorem test_V57_sub_alias :
    (after (((placed 0x8F15).setV 15 5).setV 1 3)).getV 15 = 2 ∧
    (after (((placedLast 0x8F15).setV 15 5).setV 1 3)).getV 15 = 1 := by decide
theorem test_V61_shr :
    let t := after (((placed 0x8126).setV 1 3).setV 2 0xFF)
    t.getV 1 = 1 ∧ t.getV 15 = 1 ∧ t.getV 2 = 0xFF := by decide
theorem test_V62_shr_alias :
    (after ((placed 0x8F06).setV 15 3)).getV 15 = 0 ∧
    (after ((placedLast 0x8F06).setV 15 3)).getV 15 = 1 := by decide
theorem test_V64_subn :
    let t := after (((placed 0x8017).setV 0 5).setV 1 3)
    t.getV 0 = 0xFD ∧ t.getV 15 = 0 := by decide
theorem test_V66_subn_alias :
    (after (((placed 0x8F17).setV 15 3).setV 1 5)).getV 15 = 2 ∧
    (after (((placedLast 0x8F17).setV 15 3).setV 1 5)).getV 15 = 1 := by decide
theorem test_V67_shl :
    let t := after ((placed 0x800E).setV 0 0x81)
    t.getV 0 = 2 ∧ t.getV 15 = 1 := by decide
theorem test_V69_shl_alias :
    (after ((placed 0x8F0E).setV 15 0x81)).getV 15 = 2 ∧
    (after ((placedLast 0x8F0E).setV 15 0x81)).getV 15 = 1 := by decide
theorem test_V70_rnd :
    let t := after ({ placed 0xC30F with rand := 0xAB })
    t.getV 3 = 0x0B := by decide
theorem test_V73_ld_i :
    let t := after (placed 0xAFFF)
    t.i = 0xFFF := by decide
theorem test_V75_add_i :
    let t := after (((placed 0xF01E).setI 0xFFF).setV 0 1)
    t.i = 0 ∧ t.getV 15 = 1 := by decide
theorem test_V77_add_i_alias :
    (after (((placed 0xFF1E).setV 15 5).setI 0x100)).i = 0x100 ∧
    (after (((placedLast 0xFF1E).setV 15 5).setI 0x100)).i = 0x105 := by decide
theorem test_V81_ld_f :
    let t := after ((placed 0xF029).setV 0 0xFF)
    t.i = 0x4FB := by decide
theorem test_W3_ld_b :
    let t := after (((placed 0xF033).setI 0x210).setV 0 156)
    t.loadBytes 0x210 3 = [1, 5, 6] ∧ t.i = 0x210 := by decide
theorem test_V87_ld_b_bounds :
    let t := after (((placed 0xF033).setI 0xFFE).setV 0 42)
    faulted t 3 0xFFE 0x200 0xF033 = true ∧ t.mem = (placed 0xF033).mem := by decide
theorem test_V88_dump :
    let t := after ((((placed 0xF055).setI 0x300).setV 0 0xAA).setV 1 0xBB)
    t.loadBytes 0x300 2 = [0xAA, 0] ∧ t.i = 0x300 := by decide
theorem test_V90_dump_bounds :
    let t := after ((placed 0xFF55).setI 0xFF1)
    faulted t 3 0xFF1 0x200 0xFF55 = true := by decide
theorem test_V91_load :
    let t := after ((placed 0xF465).setV 5 7)
    t.getV 0 = 0xF0 ∧ t.getV 3 = 0x90 ∧ t.getV 4 = 0xF0 ∧ t.getV 5 = 7 := by decide
theorem test_V93_load_bounds :
    let t := after (((placed 0xF165).setI 0xFFF).setV 0 4)
    faulted t 3 0xFFF 0x200 0xF165 = true ∧ t.getV 0 = 4 := by decide
theorem test_V95_skp :
    let t := after ({ (placed 0xE19E).setV 1 5 with keys := 0x0020 })
    t.pc = 0x204 := by decide
theorem test_V97_skp_index :
    let t := after ((placed 0xE19E).setV 1 0x10)
    faulted t 5 0x10 0x200 0xE19E = true := by decide
theorem test_V99_sknp :
    let t := after ({ (placed 0xE1A1).setV 1 5 with keys := 0x0020 })
    t.pc = 0x202 := by decide
theorem test_V100_sknp_index :
    let t := after ((placed 0xE1A1).setV 1 0xFF)
    faulted t 5 0xFF 0x200 0xE1A1 = true := by decide
theorem test_V101_wait_key :
    let t := after ({ placed 0xF20A with keys := 0x0208 })
    t.getV 2 = 3 ∧ t.pc = 0x202 := by decide
theorem test_V104_block_ticks :
    let t := after ({ placed 0xF20A with dt := 2, now := 1 })
    t.pc = 0x200 ∧ t.dt = 1 ∧ t.lastTick = 1 := by decide
theorem test_V106_ld_vx_dt :
    let t := after ({ placed 0xF307 with dt := 5, now := 1 })
    t.getV 3 = 5 ∧ t.dt = 4 := by decide
theorem test_V107_ld_dt :
    let t := after ((placed 0xF015).setV 0 3)
    t.dt = 3 := by decide
theorem test_V108_ld_dt_ticks :
    let t := after ({ (placed 0xF015).setV 0 3 with now := 1 })
    t.dt = 2 := by decide
theorem test_V109_ld_st :
    let t := after ((placed 0xF018).setV 0 2)
    t.st = 2 ∧ t.soundOn = true := by decide
theorem test_V111_unknown :
    let t := after (placed 0x0123)
    t.pc = 0x202 ∧ t.diagUnimpl = true ∧ t.diagOpcode = 0x0123 := by decide
theorem test_R72_unknown_ticks :
    let t := after ({ placed 0x0000 with dt := 2, now := 1 })
    t.dt = 1 ∧ t.st = 0 ∧ t.lastTick = 1 := by decide
theorem test_V120_fetch_bounds :
    let t := after (oddState 0xFFF)
    faulted t 3 0xFFF 0xFFF 0 = true := by decide
theorem test_V121_fetch_odd :
    let t := after ({ State.reset with pc := 0x301 })
    faulted t 4 0 0x301 0 = true := by decide
theorem test_V122_fault_no_tick :
    let t := after ({ placed 0x00EE with dt := 5, now := 100 })
    t.mode = .fault ∧ t.dt = 5 ∧ t.lastTick = 0 := by decide
theorem test_V126_tick_once :
    let t := after ({ placed 0x6000 with st := 1, now := 5 })
    t.dt = 0 ∧ t.st = 0 ∧ t.lastTick = 5 := by decide
theorem test_V127_tick_not_due :
    let t := after ({ placed 0x6000 with dt := 9, now := 16, params := { Config.defaultParams with clockHz := 1000 } })
    t.dt = 9 ∧ t.lastTick = 0 := by decide
theorem test_V132_load : let t := ({ placed 0 with mode := .fault, faultCode := 1 }.setV 0 9).load [0x60, 0x00] 0
    t.mode = .run ∧ t.faultCode = 0 ∧ t.getV 0 = 0 ∧ t.readByte 0x200 = 0x60 := by decide
theorem test_V133_idle : stepRequest State.powerOn = .next State.powerOn := rfl

/-- The first step from reset with a word placed runs it, whatever the host's free move is. -/
theorem test_first_step : ∃ t, step (placed 0x6A02) = .next t ∧ t.getV 10 = 2 ∧ t.pc = 0x202 :=
  ⟨_, rfl, by decide, by decide⟩

/-! ## Witnesses: the hypotheses of each statement can be met -/

theorem witness_encode_of_decode : decode 0x512F#16 = .ok (.seReg 1 2) := by decide
theorem witness_matching_row : 0x8126#16 &&& (opcodeRow (.shr 1)).2 = (opcodeRow (.shr 1)).1 := by decide
theorem witness_unimplemented : decode 0x800F#16 = .error (.notImplemented 0x800F#16) ∧
    decode 0xE09F#16 = .error (.notImplemented 0xE09F#16) ∧
    decode 0xF0FF#16 = .error (.notImplemented 0xF0FF#16) ∧
    decode 0x00E1#16 = .error (.notImplemented 0x00E1#16) := by decide
theorem witness_step_runs : let s := placed 0x6A02
    s.mode = .run ∧ s.pc.getLsbD 0 = false ∧ s.pc.toNat < 0xFFF ∧
    decodeBytes [s.readByte s.pc.toNat, s.readByte (s.pc.toNat + 1)] = .ok (.ldImm 0xA 2#8, []) := by
  decide
theorem witness_step_runs_odd : let s := (oddState 0x203).storeBytes 0x203 [0x12, 0x03]
    s.mode = .run ∧ s.pc.getLsbD 0 = true ∧ s.params.allowOddPc = true ∧
    decodeBytes [s.readByte s.pc.toNat, s.readByte (s.pc.toNat + 1)] = .ok (.jp 0x203#12, []) := by
  decide
theorem witness_fetch_odd : let s := { State.reset with pc := 0xFFF }
    s.mode = .run ∧ s.pc.toNat % 2 = 1 ∧ s.params.allowOddPc = false := by decide
theorem witness_fetch_bound : let s := oddState 0xFFF
    s.mode = .run ∧ s.params.allowOddPc = true ∧ s.pc.toNat + 1 > 0xFFF := by decide
theorem witness_fetch_word : let s := { State.reset with pc := 0xFFE }
    s.pc.toNat % 2 = 0 ∧ s.pc.toNat + 1 ≤ 0xFFF := by decide
theorem witness_unknown_word : let s := placed 0x0123
    s.mode = .run ∧ s.fetch = .ok 0x0123#16 ∧
    decode 0x0123#16 = .error (.notImplemented 0x0123#16) ∧ s.tickDue = false ∧
    { s with now := 1 }.tickDue = true ∧ { s with now := 1 }.fetch = .ok 0x0123#16 :=
  ⟨rfl, rfl, by decide, by decide, by decide, rfl⟩
theorem witness_tick_due : let s := { placed 0x6000 with now := 1 }
    s.mode = .run ∧ (after s).mode = .run ∧ cycle s = .next (after s) ∧ s.tickDue = true :=
  ⟨rfl, by decide, rfl, by decide⟩
theorem witness_tick_not_due : let s := placed 0x6000
    s.mode = .run ∧ (after s).mode = .run ∧ cycle s = .next (after s) ∧ s.tickDue = false :=
  ⟨rfl, by decide, rfl, by decide⟩
theorem witness_stopped : State.powerOn.mode ≠ .run ∧ State.powerOn.nextMove.load = none ∧
    { State.reset with mode := .fault, script := [quiet] }.nextMove.load = none := by
  exact ⟨by decide, rfl, rfl⟩
theorem witness_faulting_cycle : let s := placed 0x00EE
    s.mode = .run ∧ cycle s = .next (after s) ∧ (after s).mode = .fault := ⟨rfl, rfl, by decide⟩
theorem witness_faulting_fetch : let s := { State.reset with pc := 0x301 }
    s.mode = .run ∧ cycle s = .next (after s) ∧ (after s).mode = .fault := ⟨rfl, rfl, by decide⟩
theorem witness_fetch_sees : let s := State.reset.setI 0xFF0
    Memory.wf s.params.font s.mem = true ∧ s.i.toNat + (15 : Fin 16).val ≤ 0xFFF ∧
    (0xFFE#16).toNat % 2 = 0 ∧ (15 : Fin 16).val = (14 : Fin 16).val + 1 ∧
    (0xFFE#16).toNat = s.i.toNat + (14 : Fin 16).val := by decide
theorem witness_draw : let s := State.reset.setI 0xFF1
    s.i.toNat + (15 : Fin 16).val - 1 ≤ 0xFFF ∧
    0xFFF < (s.setI 0xFF2).i.toNat + (15 : Fin 16).val - 1 ∧
    faulted (after ((placed 0xD013).setI 0xFFE)) 3 0xFFE 0x200 0xD013 = true ∧
    (after ((placed 0xD010).setI 0xFFF)).mode = .run := by decide
theorem witness_draw_twice : let s := (State.reset.storeBytes 0x300 [0x3C]).setI 0x300
    ∃ t u, s.i.toNat + (1 : Fin 16).val - 1 ≤ 0xFFF ∧ exec (.drw 0 1 1) s = .next t ∧
      exec (.drw 0 1 1) t = .next u := ⟨_, _, by decide, rfl, rfl⟩
theorem witness_return : { State.reset with sp := 16 }.sp.val = (15 : Fin 16).val + 1 ∧
    { State.reset with sp := 1 }.sp.val = (0 : Fin 16).val + 1 ∧ State.reset.sp = 0 := by decide
theorem witness_call : { State.reset with sp := 15 }.sp.val < 16 ∧ State.reset.sp.val < 16 ∧
    { State.reset with sp := 16 }.sp = 16 := by decide
theorem witness_return_undoes_call : let s := { State.reset with sp := 15 }
    ∃ t, s.sp.val < 16 ∧ exec (.call 0x210#12) s = .next t ∧
      (t.setV 0 7).sp = t.sp ∧ (t.setV 0 7).stack = t.stack := ⟨_, by decide, rfl, rfl, rfl⟩
theorem witness_skips : State.reset.getV 3 = 0#8 ∧ State.reset.getV 3 ≠ 1#8 ∧
    State.reset.getV 3 = State.reset.getV 4 ∧
    (State.reset.setV 3 1).getV 3 ≠ (State.reset.setV 3 1).getV 4 := by decide
theorem witness_alias : State.reset.params.vfAlias = .asWritten ∧
    (placedLast 0).params.vfAlias = .snapshotFlagLast ∧ (14 : Fin 16) ≠ 15 := by decide
theorem witness_digits : Memory.wf State.reset.params.font State.reset.mem = true ∧
    (State.reset.setI 0xFFD).i.toNat + 2 ≤ 0xFFF ∧ (State.reset.setI 0xFFE).i.toNat + 2 > 0xFFF := by
  decide
theorem witness_blocks : Memory.wf State.reset.params.font State.reset.mem = true ∧
    (State.reset.setI 0xFF0).i.toNat + (15 : Fin 16).val ≤ 0xFFF ∧
    (State.reset.setI 0xFF1).i.toNat + (15 : Fin 16).val > 0xFFF ∧
    (State.reset.setI 0xFFF).i.toNat + (0 : Fin 16).val ≤ 0xFFF := by decide
theorem witness_key_skips : ((State.reset.setV 1 15).getV 1).toNat ≤ 15 ∧
    15 < ((State.reset.setV 1 16).getV 1).toNat ∧
    { State.reset with keys := 0x8000 }.keys.getLsbD ((State.reset.setV 1 15).getV 1).toNat = true ∧
    State.reset.keys.getLsbD ((State.reset.setV 1 15).getV 1).toNat = false := by decide
theorem witness_key_wait : State.reset.keys = 0#16 ∧
    (0x8000#16).getLsbD 15 = true ∧ (∀ j < 15, (0x8000#16).getLsbD j = false) ∧
    (0x0001#16).getLsbD 0 = true := by decide
theorem witness_sound : State.reset.mode = .run ∧ (State.reset.setV 0 2).getV 0 ≠ 0#8 := by decide
theorem witness_access_table : ∃ t, exec (.ldImm 3 5#8) State.reset = .next t ∧
    (∀ nnn, Instr.ldImm 3 5#8 ≠ .ldI nnn) ∧ (∀ x, Instr.ldImm 3 5#8 ≠ .ldB x) ∧
    (∀ x, Instr.ldImm 3 5#8 ≠ .ldMemVx x) ∧ Instr.ldImm 3 5#8 ≠ .cls :=
  ⟨_, rfl, by decide, by decide, by decide, by decide⟩
theorem witness_registers_kept : (∃ t, exec (.ldVxMem 3) State.reset = .next t) ∧
    destReg (.ldVxMem 3) ≠ some 4 ∧ (∀ x, Instr.ldVxMem 3 = .ldVxMem x → x.val < (4 : Fin 16).val) ∧
    (∃ t, exec (.addReg 3 4) State.reset = .next t) ∧ destReg (.addReg 3 4) ≠ some 14 ∧
    (writesFlag (.addReg 3 4) = true → (14 : Fin 16) ≠ 15) ∧
    (∀ x, Instr.addReg 3 4 = .ldVxMem x → x.val < (14 : Fin 16).val) :=
  ⟨⟨_, rfl⟩, by decide, by decide, ⟨_, rfl⟩, by decide, by decide, by decide⟩
theorem witness_flag_kept : ∃ t, exec (.ldImm 3 5#8) State.reset = .next t ∧
    writesFlag (.ldImm 3 5#8) = false ∧ destReg (.ldImm 3 5#8) ≠ some 15 ∧
    Instr.ldImm 3 5#8 ≠ .ldVxMem 15 := ⟨_, rfl, by decide, by decide, by decide⟩
theorem witness_flag_written : let t := nextOf State.reset (exec (.addReg 3 4) State.reset)
    exec (.addReg 3 4) State.reset = .next t ∧ writesFlag (.addReg 3 4) = true ∧
    destReg (.addReg 3 4) ≠ some 15 ∧ t.mode ≠ .fault := ⟨rfl, by decide, by decide, by decide⟩
theorem witness_pc_moves : let t := nextOf State.reset (exec (.seImm 3 0#8) State.reset)
    let u := nextOf State.reset (exec (.ldVxK 3) State.reset)
    exec (.seImm 3 0#8) State.reset = .next t ∧ t.mode = .run ∧ isJump (.seImm 3 0#8) = false ∧
    exec (.ldVxK 3) State.reset = .next u ∧ u.mode = .run ∧ isJump (.ldVxK 3) = false :=
  ⟨rfl, by decide, by decide, rfl, by decide, by decide⟩

/-- The invariant at reset, so that StepKeepsInvariant has a state to start from. -/
theorem witness_invariant : State.reset.Inv where
  pc12 := by decide
  i12 := by decide
  stack12 := by decide
  memWf := by decide
  faultCode := by decide
  codeRange := by decide
  noFault := by decide
  diagRun := by decide
  time := by decide
theorem witness_step_answers : ∃ t, step State.reset = .next t := ⟨_, rfl⟩

/-- A state in FAULT whose host loads a program. -/
def reloading : State :=
  { State.reset with mode := .fault, faultCode := 2#8
                     script := [{ quiet with load := some { wait := 3, bytes := [0x12, 0x00] } }] }
theorem witness_fault_left : let t := nextOf reloading (step reloading)
    reloading.mode = .fault ∧ step reloading = .next t ∧ t.mode ≠ .fault ∧ t.readByte 0x200 = 0x12 :=
  ⟨rfl, rfl, by decide, by decide⟩
theorem witness_spin : (placed 0x1200).Spin := ⟨rfl, by decide, rfl⟩
theorem witness_host_turn : let s := { State.reset with script := [{ quiet with fbAck := true }] }
    let t := nextOf s (step s)
    s.nextMove.load = none ∧ step s = .next t ∧ s.fbChanged = true ∧ t.fbChanged = false ∧
    reloading.nextMove.load = some { wait := 3, bytes := [0x12, 0x00] } :=
  ⟨rfl, rfl, rfl, by decide, rfl⟩
theorem witness_load : let s := State.reset.load [0x60, 0x01, 0x02] 7
    s.readByte 79 = 0x80 ∧ s.readByte 80 = 0 ∧ s.readByte 0x1FF = 0 ∧ s.readByte 0x200 = 0x60 ∧
    s.readByte 0x202 = 0x02 ∧ s.readByte 0xFFF = 0 ∧ s.lastTick = 7 := by decide
theorem witness_canonical : Memory.wf Config.defaultFont [(0x200, 5#8), (0xFFF, 1#8)] = true ∧
    Memory.wf Config.defaultFont [(0x200, 0#8)] = false ∧
    Memory.wf Config.defaultFont [(0x201, 5#8), (0x200, 5#8)] = false := by decide
theorem witness_placed : Memory.wf State.reset.params.font State.reset.mem = true ∧
    { State.reset with pc := 0x301 }.canFetch = false ∧
    { State.reset with pc := 0xFFE }.canFetch = true := by decide

end Sys2Proof.Tests
end

/-! SUPPORT. What an instruction may leave in a register (R16, R33): a register that no rule of the
instruction writes keeps its value, and a flag writer leaves 0 or 1 in V[F]. -/

namespace Sys2Proof.Machine

open Sys2Proof

/-! ## Postconditions of an outcome -/

/-- Every next state that `o` answers satisfies `P`. -/
def Ensures (o : Outcome State) (P : State → Prop) : Prop := ∀ t, o = .next t → P t

/-- An instruction that completes answers its resolved state. -/
theorem Ensures.done {u : State} {d : Directive} {P : State → Prop} (h : P (u.resolve d)) :
    Ensures (u.done d) P := by
  rintro t ⟨⟩; exact h

/-- An instruction that faults answers the fault entry. -/
theorem Ensures.raise {s : State} {f : Fault} {i : Instr} {P : State → Prop}
    (h : P (s.enterFault f (encode i))) : Ensures (s.raise f i) P := by
  rintro t ⟨⟩; exact h

/-! ## What the shared operations leave in the registers -/

@[simp] theorem State.getV_resolve (s : State) (d : Directive) (r : Fin 16) :
    (s.resolve d).getV r = s.getV r := rfl

theorem State.getV_of_push? {s u : State} {a : Word} (h : s.push? a = some u) (r : Fin 16) :
    u.getV r = s.getV r := by
  unfold State.push? at h
  split at h <;> cases h
  rfl

theorem State.getV_of_pop? {s u : State} {a : Word} (h : s.pop? = some (u, a)) (r : Fin 16) :
    u.getV r = s.getV r := by
  unfold State.pop? at h
  split at h <;> cases h
  rfl

/-- `writeResult` writes Vx and V[F] only. -/
theorem State.getV_writeResult_ne (s : State) {x r : Fin 16} (a f : Byte) (hx : r ≠ x) (hf : r ≠ 15) :
    (s.writeResult x a f).getV r = s.getV r := by
  rw [State.getV_writeResult]; split <;> simp [hx, hf]

/-- `writeShift` writes Vx and V[F] only. -/
theorem State.getV_writeShift_ne (s : State) {x r : Fin 16} (g : Byte → Byte) (f : Byte) (hx : r ≠ x)
    (hf : r ≠ 15) : (s.writeShift x g f).getV r = s.getV r := by
  rw [State.getV_writeShift]; split <;> simp [hx, hf]

/-- With another destination, `writeResult` leaves the flag in V[F] under either VF_ALIAS. -/
theorem State.getV_writeResult_flag (s : State) {x : Fin 16} (a f : Byte) (hx : (15 : Fin 16) ≠ x) :
    (s.writeResult x a f).getV 15 = f := by
  rw [State.getV_writeResult]; split <;> simp [hx]

/-- With another destination, `writeShift` leaves the flag in V[F] under either VF_ALIAS. -/
theorem State.getV_writeShift_flag (s : State) {x : Fin 16} (g : Byte → Byte) (f : Byte)
    (hx : (15 : Fin 16) ≠ x) : (s.writeShift x g f).getV 15 = f := by
  rw [State.getV_writeShift]; split <;> simp [hx]

/-- ADD I, Vx writes I and V[F] and nothing else under either VF_ALIAS, which settles only the sum. -/
theorem execAddI_eq (x : Fin 16) (s : State) :
    ∃ a, execAddI x s = ((s.setI a).setFlag (indexFlag s.i (s.getV x))).done .next := by
  unfold execAddI
  split
  · exact ⟨indexSum s.i ((s.setFlag (indexFlag s.i (s.getV x))).getV x), rfl⟩
  · exact ⟨indexSum s.i (s.getV x), rfl⟩

/-! ## Registers an instruction does not write -/

/-- A register that is not the instruction's destination, not V[F] of a flag writer and not in the block
that LD Vx, [I] loads keeps its value, in a faulting instruction too. -/
theorem exec_keeps_reg (i : Instr) (s : State) (r : Fin 16) (hd : destReg i ≠ some r)
    (hf : writesFlag i = true → r ≠ 15) (hm : ∀ x, i = .ldVxMem x → x.val < r.val) :
    Ensures (exec i s) fun t => t.getV r = s.getV r := by
  have ne_dest {x} (h : some x ≠ some r) : r ≠ x := fun e => h (congrArg some e.symm)
  cases i with
  | cls | jp _ | seImm _ _ | sneImm _ _ | seReg _ _ | sneReg _ _ | ldI _ | jpV0 _ | ldDtVx _ | ldStVx _
  | ldF _ => exact .done rfl
  | ret =>
    simp only [exec, execRet]
    split
    next h => exact .done (State.getV_of_pop? h r)
    next => exact .raise rfl
  | call nnn =>
    simp only [exec, execCall]
    split
    next h => exact .done (State.getV_of_push? h r)
    next => exact .raise rfl
  | ldImm _ _ | addImm _ _ | ldReg _ _ | orReg _ _ | andReg _ _ | xorReg _ _ | rnd _ _ | ldVxDt _ =>
    exact .done (State.getV_setV_ne s _ (ne_dest hd))
  | ldVxK x =>
    simp only [exec, execLdVxK]
    split
    · exact .done rfl
    · exact .done (State.getV_setV_ne s _ (ne_dest hd))
  | addReg _ _ | subReg _ _ | subnReg _ _ =>
    exact .done (State.getV_writeResult_ne s _ _ (ne_dest hd) (hf rfl))
  | shr _ | shl _ => exact .done (State.getV_writeShift_ne s _ _ (ne_dest hd) (hf rfl))
  | addI x =>
    obtain ⟨a, e⟩ := execAddI_eq x s
    rw [exec, e]
    exact .done (State.getV_setV_ne (s.setI a) _ (hf rfl))
  | drw x y n =>
    simp only [exec, execDrw]
    split
    · exact .done (State.getV_setV_ne (s.setFb _) _ (hf rfl))
    · exact .raise rfl
  | skp _ | sknp _ =>
    simp only [exec, execSkp, execSknp]
    split
    · exact .raise rfl
    · exact .done rfl
  | ldB _ | ldMemVx _ =>
    simp only [exec, execLdB, execLdMemVx]
    split
    · exact .done rfl
    · exact .raise rfl
  | ldVxMem x =>
    simp only [exec, execLdVxMem]
    split
    · refine .done ?_
      rw [State.getV_resolve, State.getV_loadRegs, if_neg (Nat.not_le.mpr (hm x rfl))]
    · exact .raise rfl

/-! ## Flag values -/

/-- A byte that is 0 or 1 (R16). -/
def IsFlag (b : Byte) : Prop := b = 0#8 ∨ b = 1#8

theorem isFlag_flag (c : Bool) : IsFlag (flag c) := by
  cases c
  · exact .inl rfl
  · exact .inr rfl

/-- The bit a shift moves out is a flag. -/
theorem isFlag_and_one (b : Byte) : IsFlag (b &&& 1#8) := by
  have hlt : (b &&& 1#8).toNat < 2 := by
    rw [BitVec.toNat_and]; exact Nat.and_lt_two_pow b.toNat (n := 1) (by decide)
  obtain h | h : (b &&& 1#8).toNat = 0 ∨ (b &&& 1#8).toNat = 1 := by omega
  · exact .inl (BitVec.eq_of_toNat_eq h)
  · exact .inr (BitVec.eq_of_toNat_eq h)

/-- A flag writer whose destination is not V[F] and which does not fault leaves 0 or 1 in V[F]. -/
theorem exec_flagWriter_leaves_flag (i : Instr) (s : State) (hw : writesFlag i = true)
    (hd : destReg i ≠ some 15) :
    Ensures (exec i s) fun t => t.mode ≠ .fault → IsFlag (t.getV 15) := by
  have ne_dest {x : Fin 16} (h : some x ≠ some 15) : 15 ≠ x := fun e => h (congrArg some e.symm)
  cases i with
  | addReg _ _ | subReg _ _ | subnReg _ _ =>
    refine .done fun _ => ?_
    rw [State.getV_resolve, State.getV_writeResult_flag s _ _ (ne_dest hd)]
    exact isFlag_flag _
  | shr _ | shl _ =>
    refine .done fun _ => ?_
    rw [State.getV_resolve, State.getV_writeShift_flag s _ _ (ne_dest hd)]
    exact isFlag_and_one _
  | addI x =>
    obtain ⟨a, e⟩ := execAddI_eq x s
    rw [exec, e]
    refine .done fun _ => ?_
    rw [State.getV_resolve, State.setFlag_eq, State.getV_setV_same]
    exact isFlag_flag _
  | drw x y n =>
    simp only [exec, execDrw]
    split
    · refine .done fun _ => ?_
      rw [State.getV_resolve, State.setFlag_eq, State.getV_setV_same]
      exact isFlag_flag _
    · exact .raise fun hmode => absurd rfl hmode
  | _ => cases hw

/-- Settles O48: V[F] is one register that `exec_keeps_reg` speaks of, LD VF, [I] the only block load
that reaches it, and a flag writer leaves a flag there. -/
theorem onlyFlagWritersAndDestinationsChangeFlag :
    Obligations.OnlyFlagWritersAndDestinationsChangeFlag := by
  intro i s t h
  refine ⟨fun hw hd hm => ?_, fun hw hd => exec_flagWriter_leaves_flag i s hw hd t h⟩
  have below_flag : ∀ x, i = .ldVxMem x → x.val < (15 : Fin 16).val := by
    rintro x rfl
    exact Fin.lt_last_iff_ne_last.mpr fun e => hm (congrArg _ e)
  exact exec_keeps_reg i s 15 hd (fun hw' => absurd hw' (by simp [hw])) below_flag t h

end Sys2Proof.Machine

/-! SUPPORT. The fetch in numbers (R40, R41): the value of a big-endian word and the parity of PC. -/

namespace Sys2Proof.Machine

open Sys2Proof

/-! ## Big-endian words and odd addresses -/

/-- The value of a big-endian word: 256 times the high byte plus the low byte (R40). -/
theorem wordOfBytes_toNat (hi lo : Byte) :
    (wordOfBytes hi lo).toNat = 256 * hi.toNat + lo.toNat := by
  rw [wordOfBytes, BitVec.toNat_append, ← Nat.shiftLeft_add_eq_or_of_lt lo.isLt, Nat.shiftLeft_eq]
  omega

/-- The alignment test of the fetch reads bit 0: it is set exactly for an odd address. -/
theorem getLsbD_zero_iff_odd (a : Word) : a.getLsbD 0 = true ↔ a.toNat % 2 = 1 := by
  rw [BitVec.getLsbD, Nat.testBit_zero, decide_eq_true_iff]

/-- Settles O8: each outcome of `State.fetch_cases` answers one part, and its guards contradict the
premises of the other two. -/
theorem fetchReadsBigEndianOrFaults : Obligations.FetchReadsBigEndianOrFaults := by
  intro s
  have outcomes := s.fetch_cases
  rw [getLsbD_zero_iff_odd] at outcomes
  obtain ⟨odd, strict, h⟩ | ⟨aligned, high, h⟩ | ⟨aligned, low, h⟩ := outcomes
  · have misaligned : ¬(s.pc.toNat % 2 = 0 ∨ s.params.allowOddPc = true) := by simp [odd, strict]
    exact ⟨fun _ _ => h, fun ok => absurd ok misaligned, fun ok => absurd ok misaligned⟩
  · exact ⟨fun odd strict => absurd ⟨odd, strict⟩ aligned, fun _ _ => h, fun _ low => by omega⟩
  · exact ⟨fun odd strict => absurd ⟨odd, strict⟩ aligned, fun _ high => by omega,
      fun _ _ => ⟨_, h, wordOfBytes_toNat _ _⟩⟩

end Sys2Proof.Machine

/-! SUPPORT. Reading a field back from a word written nibble by nibble (R51), and the two rows that
examine the nibble n1 alone (R57). -/

namespace Sys2Proof

open Sys2Proof.Machine

/-! ## The fields of a word of four nibbles -/

theorem fieldN1_nibbles (n1 a b c : BitVec 4) : fieldN1 (n1 ++ a ++ b ++ c) = n1 := by
  change (n1 ++ a ++ b ++ c).extractLsb' 12 4 = n1
  rw [BitVec.extractLsb'_append_eq_of_le (by decide),
    BitVec.extractLsb'_append_eq_of_le (by decide), BitVec.extractLsb'_append_eq_left]

theorem fieldX_nibbles (n1 a b c : BitVec 4) : fieldX (n1 ++ a ++ b ++ c) = a.toFin := by
  change ((n1 ++ a ++ b ++ c).extractLsb' 8 4).toFin = a.toFin
  rw [BitVec.extractLsb'_append_eq_of_le (by decide),
    BitVec.extractLsb'_append_eq_of_le (by decide), BitVec.extractLsb'_append_eq_right]

theorem fieldY_nibbles (n1 a b c : BitVec 4) : fieldY (n1 ++ a ++ b ++ c) = b.toFin := by
  change ((n1 ++ a ++ b ++ c).extractLsb' 4 4).toFin = b.toFin
  rw [BitVec.extractLsb'_append_eq_of_le (by decide), BitVec.extractLsb'_append_eq_right]

@[simp] theorem nib_toFin (x : Fin 16) : (nib x).toFin = x := rfl

/-! ## The register skips -/

/-- The row of SE Vx, Vy is picked by n1 = 5 alone (R57). -/
theorem decode_eq_seReg (op : Word) (h : fieldN1 op = 0x5#4) :
    decode op = .ok (.seReg (fieldX op) (fieldY op)) := by
  rw [decode, h]
  rfl

/-- The row of SNE Vx, Vy is picked by n1 = 9 alone (R57). -/
theorem decode_eq_sneReg (op : Word) (h : fieldN1 op = 0x9#4) :
    decode op = .ok (.sneReg (fieldX op) (fieldY op)) := by
  rw [decode, h]
  rfl

/-- Settles O5: n1 alone picks the row, and the row reads x and y back from the word. -/
theorem registerSkipsIgnoreLastNibble : Obligations.RegisterSkipsIgnoreLastNibble := by
  intro x y n
  constructor
  · rw [decode_eq_seReg _ (fieldN1_nibbles ..), fieldX_nibbles, fieldY_nibbles,
      nib_toFin, nib_toFin]
  · rw [decode_eq_sneReg _ (fieldN1_nibbles ..), fieldX_nibbles, fieldY_nibbles,
      nib_toFin, nib_toFin]

end Sys2Proof

/-! SUPPORT. A cycle whose word is no instruction (R72): frames compose, what the timer tick writes
(R130), and the next state as the diagnostic followed by the tick. -/

namespace Sys2Proof.Machine

open Sys2Proof

/-! ## Frames compose -/

theorem Part.same_trans {s t u : State} {p : Part} (hst : p.same s t) (htu : p.same t u) :
    p.same s u := by
  cases p with
  | mem => exact fun a => (htu a).trans (hst a)
  | faultStatus =>
    obtain ⟨code, pc, op, addr⟩ := hst
    obtain ⟨code', pc', op', addr'⟩ := htu
    exact ⟨code'.trans code, pc'.trans pc, op'.trans op, addr'.trans addr⟩
  | _ => exact Eq.trans htu hst

/-- What neither of two changes names is unchanged by both. -/
theorem UnchangedBut.trans {rs rs' : List (Fin 16)} {ps ps' : List Part} {s t u : State}
    (hst : UnchangedBut rs ps s t) (htu : UnchangedBut rs' ps' t u) :
    UnchangedBut (rs ++ rs') (ps ++ ps') s u where
  regs r hr := by
    rw [List.mem_append, not_or] at hr
    exact (htu.regs r hr.2).trans (hst.regs r hr.1)
  parts p hp := by
    rw [List.mem_append, not_or] at hp
    exact Part.same_trans (hst.parts p hp.1) (htu.parts p hp.2)

/-! ## The timer tick (R130) -/

theorem State.tickDue_iff (s : State) : s.tickDue = true ↔ s.Due := decide_eq_true_iff

/-- A tick that is due counts both timers down and records the time. -/
theorem State.tick_of_due {s : State} (h : s.Due) :
    s.tick.dt.toNat = s.dt.toNat - 1 ∧ s.tick.st.toNat = s.st.toNat - 1 ∧ s.tick.lastTick = s.now := by
  simp [s.tickDue_iff.mpr h, decTimer_toNat]

/-- A tick that is not due leaves the timers and the recorded time alone. -/
theorem State.tick_of_not_due {s : State} (h : ¬s.Due) :
    s.tick.dt = s.dt ∧ s.tick.st = s.st ∧ s.tick.lastTick = s.lastTick := by
  simp [mt s.tickDue_iff.mp h]

theorem State.tick_frame (s : State) : UnchangedBut [] [.dt, .st, .lastTick] s s.tick where
  regs _ _ := rfl
  parts p hp := by
    cases p with
    | dt | st | lastTick => exact absurd (by decide) hp
    | mem => exact fun _ => rfl
    | faultStatus => exact ⟨rfl, rfl, rfl, rfl⟩
    | _ => rfl

theorem State.tickUnlessFaulted_of_run {s : State} (h : s.mode = .run) : s.tickUnlessFaulted = s.tick :=
  if_pos h

/-! ## The cycle of an unknown word (R72) -/

/-- The fetch does not look at the diagnostic. -/
@[simp] theorem State.fetch_clearDiag (s : State) : s.clearDiag.fetch = s.fetch := rfl

theorem State.executeWord_of_error {op : Word} {e : DecodeError} (s : State) (h : decode op = .error e) :
    s.executeWord op = .next (s.unimplemented op) := by
  rw [State.executeWord, h]

theorem cycle_of_fetch_ok {s : State} {op : Word} (h : s.fetch = .ok op) :
    cycle s = mapNext State.tickUnlessFaulted (s.clearDiag.executeWord op) := by
  rw [cycle, State.fetch_clearDiag, h]

/-- An unknown word moves PC and raises the diagnostic; then the tick runs, since the mode is kept. -/
theorem cycle_of_unknown_word {s : State} {op : Word} {e : DecodeError} (hrun : s.mode = .run)
    (hfetch : s.fetch = .ok op) (hop : decode op = .error e) :
    cycle s = .next (s.clearDiag.unimplemented op).tick := by
  rw [cycle_of_fetch_ok hfetch, State.executeWord_of_error _ hop, mapNext,
    State.tickUnlessFaulted_of_run (show (s.clearDiag.unimplemented op).mode = .run from hrun)]

/-- What the word itself changes, besides PC, is the diagnostic. -/
theorem State.unimplemented_frame (s : State) (op : Word) :
    UnchangedBut [] [.diag] s (s.clearDiag.unimplemented op) where
  regs _ _ := rfl
  parts p hp := by
    cases p with
    | diag => exact absurd (by decide) hp
    | mem => exact fun _ => rfl
    | faultStatus => exact ⟨rfl, rfl, rfl, rfl⟩
    | _ => rfl

/-- Settles O10: the next state is the tick of the state the unknown word leaves, which holds the times
and timers of the cycle's start. -/
theorem unknownWordAdvancesWithDiagnostic : Obligations.UnknownWordAdvancesWithDiagnostic := by
  intro s op hrun hfetch hop
  exact ⟨_, cycle_of_unknown_word hrun hfetch hop, Directive.target_next s.pc, rfl, rfl,
    (s.unimplemented_frame op).trans (State.tick_frame _), State.tick_of_due, State.tick_of_not_due⟩

end Sys2Proof.Machine

/-! SUPPORT. The display instructions (41_display.md): the word Dxyn read back, the frames of the writes
a display instruction makes, and the sprite of a draw read from memory. -/

namespace Sys2Proof

open Sys2Proof.Machine

/-! ## The word of a draw -/

theorem fieldN_nibbles (n1 a b c : BitVec 4) : fieldN (n1 ++ a ++ b ++ c) = c.toFin := by
  change ((n1 ++ a ++ b ++ c).extractLsb' 0 4).toFin = c.toFin
  rw [BitVec.extractLsb'_append_eq_right]

/-- The row of DRW is picked by n1 = D alone (R56). -/
theorem decode_eq_drw (op : Word) (h : fieldN1 op = 0xD#4) :
    decode op = .ok (.drw (fieldX op) (fieldY op) (fieldN op)) := by
  rw [decode, h]
  rfl

theorem decode_drw_nibbles (x y n : Fin 16) :
    decode (0xD#4 ++ nib x ++ nib y ++ nib n) = .ok (.drw x y n) := by
  rw [decode_eq_drw _ (fieldN1_nibbles ..), fieldX_nibbles, fieldY_nibbles, fieldN_nibbles,
    nib_toFin, nib_toFin, nib_toFin]

end Sys2Proof

namespace Sys2Proof.Machine

open Sys2Proof

/-! ## Frames of the writes -/

/-- Writing registers and PC keeps every other piece. -/
theorem Part.same_of_writes_v_pc (s : State) (v : Vector Byte 16) (pc : Word) (p : Part) :
    p.same s { s with v := v, pc := pc } := by
  cases p with
  | mem => exact fun _ => rfl
  | faultStatus => exact ⟨rfl, rfl, rfl, rfl⟩
  | _ => rfl

theorem State.setV_frame (s : State) (x : Fin 16) (b : Byte) : UnchangedBut [x] [] s (s.setV x b) where
  regs _ hr := s.getV_setV_ne b (mt List.mem_singleton.mpr hr)
  parts p _ := Part.same_of_writes_v_pc s (s.v.set x b) s.pc p

theorem State.resolve_frame (s : State) (d : Directive) : UnchangedBut [] [] s (s.resolve d) where
  regs _ _ := rfl
  parts p _ := Part.same_of_writes_v_pc s s.v (d.target s.pc) p

theorem State.setFb_frame (s : State) (f : FrameBuffer) :
    UnchangedBut [] [.fb, .fbChanged] s (s.setFb f) where
  regs _ _ := rfl
  parts p hp := by
    cases p with
    | fb | fbChanged => exact absurd (by decide) hp
    | mem => exact fun _ => rfl
    | faultStatus => exact ⟨rfl, rfl, rfl, rfl⟩
    | _ => rfl

theorem State.advanced_resolve_next (s : State) : s.Advanced (s.resolve .next) :=
  Directive.target_next s.pc

/-- The model's fault entry is the one the statements speak of (R124). -/
theorem State.enteredFault_enterFault (s : State) (f : Fault) (op : Word) :
    s.EnteredFault (s.enterFault f op) f.code f.info op := rfl

/-- A Boolean flag is the bit of the proposition it decides. -/
theorem flag_eq_bit {b : Bool} {c : Prop} [Decidable c] (h : b = true ↔ c) : flag b = bit c := by
  simp only [flag, bit, h]

/-! ## CLS (R80) -/

/-- Settles O16: the next state is the cleared buffer, then PC + 2, and the frames of the two writes
compose. -/
theorem clearScreenZeroesEveryCell : Obligations.ClearScreenZeroesEveryCell :=
  ⟨rfl, fun s => ⟨_, rfl, FrameBuffer.get_clear, rfl, State.advanced_resolve_next _,
    (s.setFb_frame _).trans (State.resolve_frame _ _)⟩⟩

/-! ## DRW (R79, R81) -/

/-- The frame buffer and the collision of the sprite that DRW Vx, Vy, n draws in `s`. -/
def State.drawn (s : State) (x y n : Fin 16) : FrameBuffer × Bool :=
  drawSprite s.fb (s.getV x).toNat (s.getV y).toNat (s.loadBytes s.base n.val)

/-- The cells the loaded rows cover are the cells that memory's sprite covers. -/
theorem rowsCover_loadBytes (s : State) (base n x y : Nat) (cy : Fin 32) (cx : Fin 64) :
    rowsCover x y 0 (s.loadBytes base n) cy cx = s.spriteCovers base n x y cy cx := by
  have same_cell : s.spriteCovers base n x y cy cx = (decide (spriteRow y cy < n) &&
      decide (spriteCol x cx < 8) &&
      (s.readByte (base + spriteRow y cy)).getLsbD (7 - spriteCol x cx)) := rfl
  rw [same_cell, rowsCover, State.loadBytes, Nat.sub_zero]
  by_cases hr : spriteRow y cy < n
  · rw [Memory.readBytes_get _ _ _ _ _ hr]
    simp [hr, State.readByte]
  · rw [List.getElem?_eq_none (by rw [Memory.readBytes_length]; omega)]
    simp [hr]

theorem State.loadBytes_length_le (s : State) (base : Nat) (n : Fin 16) :
    (s.loadBytes base n.val).length ≤ 32 := by
  rw [State.loadBytes, Memory.readBytes_length]; omega

theorem State.drawn_get (s : State) (x y n : Fin 16) (cy : Fin 32) (cx : Fin 64) :
    (s.drawn x y n).1[cy][cx] = (s.fb[cy][cx] ^^
      s.spriteCovers s.i.toNat n.val (s.getV x).toNat (s.getV y).toNat cy cx) := by
  rw [← rowsCover_loadBytes]
  exact drawSprite_get _ _ _ _ (s.loadBytes_length_le _ n) cy cx

theorem State.drawn_collision (s : State) (x y n : Fin 16) :
    (s.drawn x y n).2 = true ↔ ∃ (cy : Fin 32) (cx : Fin 64), s.fb[cy][cx] = true ∧
      s.spriteCovers s.i.toNat n.val (s.getV x).toNat (s.getV y).toNat cy cx = true := by
  simp only [← rowsCover_loadBytes]
  exact drawSprite_collision _ _ _ _ (s.loadBytes_length_le _ n)

/-- A sprite inside memory is drawn, the flag written last (D27). -/
theorem exec_drw_of_inBounds {x y n : Fin 16} {s : State}
    (h : n.val = 0 ∨ s.i.toNat + n.val ≤ memSize) :
    exec (.drw x y n) s =
      .next (((s.setFb (s.drawn x y n).1).setFlag (flag (s.drawn x y n).2)).resolve .next) :=
  if_pos ((inBounds_iff _ _).mpr h)

/-- A sprite that leaves memory is not drawn. -/
theorem exec_drw_of_outOfBounds {x y n : Fin 16} {s : State}
    (h : ¬(n.val = 0 ∨ s.i.toNat + n.val ≤ memSize)) :
    exec (.drw x y n) s = .next (s.enterFault (.memBounds s.i) (encode (.drw x y n))) :=
  if_neg (mt (inBounds_iff _ _).mp h)

/-- Settles O17: inside memory the draw is `State.drawn` followed by the flag and PC + 2, whose frames
compose; outside it is the fault entry with base I. -/
theorem drawXorsSpriteAndReportsCollision : Obligations.DrawXorsSpriteAndReportsCollision := by
  intro x y n s
  refine ⟨decode_drw_nibbles x y n, fun fits => ?_, fun pos beyond => ?_⟩
  · have inside : n.val = 0 ∨ s.i.toNat + n.val ≤ memSize := by simp only [memSize]; omega
    refine ⟨_, exec_drw_of_inBounds inside, s.drawn_get x y n, ?_, rfl,
      State.advanced_resolve_next _,
      ((s.setFb_frame _).trans (State.setV_frame _ _ _)).trans (State.resolve_frame _ _)⟩
    rw [State.getV_resolve, State.setFlag_eq, State.getV_setV_same]
    exact flag_eq_bit (s.drawn_collision x y n)
  · have outside : ¬(n.val = 0 ∨ s.i.toNat + n.val ≤ memSize) := by simp only [memSize]; omega
    exact ⟨_, exec_drw_of_outOfBounds outside, s.enteredFault_enterFault _ _⟩

end Sys2Proof.Machine

/-! SUPPORT. Control transfer (42_control_transfer.md): the words of formats NNN and XKK read back, the
frames of the two writes of the return stack, and what a skip, a call and a return answer. -/

namespace Sys2Proof

open Sys2Proof.Machine

/-! ## The fields of a word with an address or a byte operand -/

theorem fieldN1_append_addr (n1 : BitVec 4) (nnn : Addr12) : fieldN1 (n1 ++ nnn) = n1 := by
  change (n1 ++ nnn).extractLsb' 12 4 = n1
  rw [BitVec.extractLsb'_append_eq_left]

theorem fieldNnn_append_addr (n1 : BitVec 4) (nnn : Addr12) : fieldNnn (n1 ++ nnn) = nnn := by
  change (n1 ++ nnn).extractLsb' 0 12 = nnn
  rw [BitVec.extractLsb'_append_eq_right]

theorem fieldN1_append_byte (n1 a : BitVec 4) (kk : Byte) : fieldN1 (n1 ++ a ++ kk) = n1 := by
  change (n1 ++ a ++ kk).extractLsb' 12 4 = n1
  rw [BitVec.extractLsb'_append_eq_of_le (by decide), BitVec.extractLsb'_append_eq_left]

theorem fieldX_append_byte (n1 a : BitVec 4) (kk : Byte) : fieldX (n1 ++ a ++ kk) = a.toFin := by
  change ((n1 ++ a ++ kk).extractLsb' 8 4).toFin = a.toFin
  rw [BitVec.extractLsb'_append_eq_of_le (by decide), BitVec.extractLsb'_append_eq_right]

theorem fieldKk_append_byte (n1 a : BitVec 4) (kk : Byte) : fieldKk (n1 ++ a ++ kk) = kk := by
  change (n1 ++ a ++ kk).extractLsb' 0 8 = kk
  rw [BitVec.extractLsb'_append_eq_right]

/-! ## The words of the control transfers (R55) -/

theorem decode_jp_word (nnn : Addr12) : decode (0x1#4 ++ nnn) = .ok (.jp nnn) := by
  rw [decode, fieldN1_append_addr, fieldNnn_append_addr]
  rfl

theorem decode_call_word (nnn : Addr12) : decode (0x2#4 ++ nnn) = .ok (.call nnn) := by
  rw [decode, fieldN1_append_addr, fieldNnn_append_addr]
  rfl

theorem decode_jpV0_word (nnn : Addr12) : decode (0xB#4 ++ nnn) = .ok (.jpV0 nnn) := by
  rw [decode, fieldN1_append_addr, fieldNnn_append_addr]
  rfl

theorem decode_seImm_word (x : Fin 16) (kk : Byte) :
    decode (0x3#4 ++ nib x ++ kk) = .ok (.seImm x kk) := by
  rw [decode, fieldN1_append_byte, fieldX_append_byte, fieldKk_append_byte, nib_toFin]
  rfl

theorem decode_sneImm_word (x : Fin 16) (kk : Byte) :
    decode (0x4#4 ++ nib x ++ kk) = .ok (.sneImm x kk) := by
  rw [decode, fieldN1_append_byte, fieldX_append_byte, fieldKk_append_byte, nib_toFin]
  rfl

end Sys2Proof

namespace Sys2Proof.Machine

open Sys2Proof

/-! ## Jumps (R84, R86) -/

/-- Settles O20: JP is one resolve, which writes only PC. -/
theorem jumpSetsProgramCounter : Obligations.JumpSetsProgramCounter := fun nnn s =>
  ⟨decode_jp_word nnn, _, rfl, absAddr_toNat nnn, s.resolve_frame _⟩

/-- Settles O23: JP V0 is one resolve, to the sum wrapped mod 4096. -/
theorem jumpWithOffsetAddsVZero : Obligations.JumpWithOffsetAddsVZero := fun nnn s =>
  ⟨decode_jpV0_word nnn, _, rfl, wrap12_toNat _, s.resolve_frame _⟩

/-! ## Skips (R69) -/

theorem State.skippedIf_resolve (s : State) (c : Prop) [Decidable c] :
    s.SkippedIf c (s.resolve (skipIf (decide c))) := by
  have target := Directive.target_skipIf (decide c) s.pc
  exact ⟨fun h => by simpa [h] using target, fun h => by simpa [h] using target⟩

/-- An instruction that only skips on a condition moves PC by it and changes nothing else. -/
theorem State.done_skipIf (s : State) (c : Prop) [Decidable c] :
    ∃ t, s.done (skipIf (decide c)) = .next t ∧ s.SkippedIf c t ∧ UnchangedBut [] [] s t :=
  ⟨_, s.done_eq _, s.skippedIf_resolve c, s.resolve_frame _⟩

/-- Settles O24: both instructions are a skip on their condition. -/
theorem immediateSkipsCompareRegister : Obligations.ImmediateSkipsCompareRegister := fun x kk s =>
  ⟨decode_seImm_word x kk, decode_sneImm_word x kk, s.done_skipIf (s.getV x = kk),
    s.done_skipIf (s.getV x ≠ kk)⟩

/-- Settles O25: both words decode by `registerSkipsIgnoreLastNibble`, and both instructions are a skip
on their condition. -/
theorem registerSkipsCompareRegisters : Obligations.RegisterSkipsCompareRegisters := by
  intro x y n s
  obtain ⟨se, sne⟩ := registerSkipsIgnoreLastNibble x y n
  exact ⟨se, sne, s.done_skipIf (s.getV x = s.getV y), s.done_skipIf (s.getV x ≠ s.getV y)⟩

/-! ## Frames of the return stack (R21) -/

theorem State.sp_frame (s : State) (sp : Fin 17) : UnchangedBut [] [.sp] s { s with sp := sp } where
  regs _ _ := rfl
  parts p hp := by
    cases p with
    | sp => exact absurd (by decide) hp
    | mem => exact fun _ => rfl
    | faultStatus => exact ⟨rfl, rfl, rfl, rfl⟩
    | _ => rfl

theorem State.stack_frame (s : State) (stack : Vector Word 16) :
    UnchangedBut [] [.stack] s { s with stack := stack } where
  regs _ _ := rfl
  parts p hp := by
    cases p with
    | stack => exact absurd (by decide) hp
    | mem => exact fun _ => rfl
    | faultStatus => exact ⟨rfl, rfl, rfl, rfl⟩
    | _ => rfl

/-- What a push writes. -/
theorem State.sp_stack_frame (s : State) (sp : Fin 17) (stack : Vector Word 16) :
    UnchangedBut [] [.sp, .stack] s { s with stack := stack, sp := sp } :=
  (s.sp_frame sp).trans (State.stack_frame _ stack)

/-! ## RET (R83) -/

/-- A return with `j + 1` entries on the stack leaves `j` of them and jumps to entry `j`. -/
theorem exec_ret_of_sp_succ {s : State} {j : Fin 16} (h : s.sp.val = j.val + 1) :
    exec .ret s = .next ({ s with sp := j.castSucc }.resolve (.jump s.stack[j])) := by
  rw [exec, execRet, s.pop?_of_pos (by omega)]
  simp only [h, Nat.add_sub_cancel]
  rfl

theorem exec_ret_of_empty {s : State} (h : s.sp = 0) :
    exec .ret s = .next (s.enterFault .stackUnderflow (encode .ret)) := by
  rw [exec, execRet, s.pop?_empty h, State.raise_eq]

/-- Settles O19: a return from a nonempty stack writes SP, then PC; from the empty one it is the fault
entry. -/
theorem returnPopsToSavedAddress : Obligations.ReturnPopsToSavedAddress :=
  ⟨rfl, fun s =>
    ⟨fun _ h => ⟨_, exec_ret_of_sp_succ h, rfl, rfl, (s.sp_frame _).trans (State.resolve_frame _ _)⟩,
      fun h => ⟨_, exec_ret_of_empty h, s.enteredFault_enterFault _ _⟩⟩⟩

/-! ## CALL (R85) -/

/-- A call below capacity pushes PC + 2 mod 4096 and jumps. -/
theorem exec_call_of_sp_lt (nnn : Addr12) {s : State} (h : s.sp.val < 16) :
    exec (.call nnn) s =
      .next ({ s with stack := s.stack.set s.sp.val (wrap12 (s.pc.toNat + 2)),
                      sp := ⟨s.sp.val + 1, by omega⟩ }.resolve (.jump (absAddr nnn))) := by
  rw [exec, execCall, s.push?_of_lt _ h]
  rfl

theorem exec_call_of_full (nnn : Addr12) {s : State} (h : s.sp = 16) :
    exec (.call nnn) s = .next (s.enterFault .stackOverflow (encode (.call nnn))) := by
  rw [exec, execCall, s.push?_full _ h, State.raise_eq]

/-- Settles O21: a call below capacity writes SP and one stack entry, then PC; at capacity it is the
fault entry. -/
theorem callPushesReturnAddress : Obligations.CallPushesReturnAddress := by
  intro nnn s
  refine ⟨decode_call_word nnn, fun below => ?_, fun full =>
    ⟨_, exec_call_of_full nnn full, s.enteredFault_enterFault _ _⟩⟩
  refine ⟨_, exec_call_of_sp_lt nnn below, absAddr_toNat nnn, rfl, fun j => ?_,
    (s.sp_stack_frame _ _).trans (State.resolve_frame _ _)⟩
  rw [State.resolve_stack, Fin.getElem_fin, Vector.getElem_set, apply_ite BitVec.toNat, wrap12_toNat]
  exact if_congr eq_comm rfl rfl

end Sys2Proof.Machine

/-! SUPPORT. Register arithmetic and logic (43_alu.md): the words of the row n1 = 8 read back, the
results narrowed to a byte in numbers, and what an instruction that writes one register, or a result and
a flag, answers. -/

namespace Sys2Proof

open Sys2Proof.Machine

/-! ## The words of register arithmetic (R55) -/

theorem decode_ldImm_word (x : Fin 16) (kk : Byte) :
    decode (0x6#4 ++ nib x ++ kk) = .ok (.ldImm x kk) := by
  rw [decode, fieldN1_append_byte, fieldX_append_byte, fieldKk_append_byte, nib_toFin]
  rfl

theorem decode_addImm_word (x : Fin 16) (kk : Byte) :
    decode (0x7#4 ++ nib x ++ kk) = .ok (.addImm x kk) := by
  rw [decode, fieldN1_append_byte, fieldX_append_byte, fieldKk_append_byte, nib_toFin]
  rfl

theorem decode_rnd_word (x : Fin 16) (kk : Byte) :
    decode (0xC#4 ++ nib x ++ kk) = .ok (.rnd x kk) := by
  rw [decode, fieldN1_append_byte, fieldX_append_byte, fieldKk_append_byte, nib_toFin]
  rfl

/-- The row of n1 = 8 is `decodeN8`. -/
theorem decode_eq_decodeN8 (op : Word) (h : fieldN1 op = 0x8#4) : decode op = decodeN8 op := by
  rw [decode, h]
  rfl

/-- Under n1 = 8 the nibble n alone picks the constructor `ins`, which then gets x and y (R56); that
`decodeN8` has `ins` at `n` is read off its table. -/
theorem decode_n8_word (x y : Fin 16) (n : BitVec 4) (ins : Fin 16 → Fin 16 → Instr)
    (row : ∀ op, fieldN op = n.toFin → decodeN8 op = .ok (ins (fieldX op) (fieldY op)) := by
      intro op h; rw [decodeN8, h]; rfl) :
    decode (0x8#4 ++ nib x ++ nib y ++ n) = .ok (ins x y) := by
  rw [decode_eq_decodeN8 _ (fieldN1_nibbles ..), row _ (fieldN_nibbles ..), fieldX_nibbles,
    fieldY_nibbles, nib_toFin, nib_toFin]

end Sys2Proof

namespace Sys2Proof.Machine

open Sys2Proof

/-! ## Results narrowed to a byte (R91) -/

theorem addWrap_toNat (a b : Byte) : (addWrap a b).toNat = (a.toNat + b.toNat) % 256 := by
  rw [addWrap, BitVec.toNat_ofNat, Nat.mod_mod]

theorem addCarry_eq_bit (a b : Byte) : addCarry a b = bit (a.toNat + b.toNat > 255) :=
  flag_eq_bit decide_eq_true_iff

/-- The difference over the integers is positive exactly when the subtrahend is the smaller byte. -/
theorem subFlag_eq_bit (a b : Byte) : subFlag a b = bit (b.toNat < a.toNat) :=
  flag_eq_bit (by rw [decide_eq_true_iff]; omega)

/-- The source's rule without integers: each branch of it is a difference of naturals. -/
theorem subValue_eq (a b : Byte) :
    subValue a b = BitVec.ofNat 8 (if b.toNat < a.toNat then a.toNat - b.toNat
      else 255 - (b.toNat - a.toNat)) := by
  rw [subValue]
  congr 1
  split <;> split <;> omega

theorem shrValue_toNat (a : Byte) : (shrValue a).toNat = a.toNat / 2 := by
  rw [shrValue, BitVec.toNat_ushiftRight, Nat.shiftRight_eq_div_pow]

theorem shrFlag_toNat (a : Byte) : (shrFlag a).toNat = a.toNat % 2 := by
  rw [shrFlag, BitVec.toNat_and]
  exact Nat.and_one_is_mod a.toNat

theorem shlValue_toNat (a : Byte) : (shlValue a).toNat = a.toNat * 2 % 256 := by
  rw [shlValue, BitVec.toNat_ofNat, Nat.mod_mod]

/-- The seven low bits shifted away leave one bit, so the mask of the rule keeps it whole. -/
theorem shlFlag_toNat (a : Byte) : (shlFlag a).toNat = a.toNat / 128 := by
  have one_bit : a.toNat / 128 < 2 := by omega
  have low_bit : (shlFlag a).toNat = a.toNat / 128 % 2 := by
    rw [shlFlag, BitVec.toNat_and, BitVec.toNat_ushiftRight, Nat.shiftRight_eq_div_pow]
    exact Nat.and_one_is_mod _
  rw [low_bit, Nat.mod_eq_of_lt one_bit]

/-! ## Instructions that write one register and no flag -/

/-- An instruction that writes V[x] and completes with `Next` changes V[x] and PC only. -/
theorem State.done_setV (s : State) (x : Fin 16) (b : Byte) :
    ∃ t, (s.setV x b).done .next = .next t ∧ t.getV x = b ∧ s.Advanced t ∧ UnchangedBut [x] [] s t :=
  ⟨_, State.done_eq _ _, s.getV_setV_same x b, State.advanced_resolve_next _,
    (s.setV_frame x b).trans (State.resolve_frame _ _)⟩

/-- Settles O26: LD Vx, kk writes one register. -/
theorem loadImmediateWritesByte : Obligations.LoadImmediateWritesByte := fun x kk s =>
  ⟨decode_ldImm_word x kk, s.done_setV x kk⟩

/-- Settles O27: ADD Vx, kk writes one register, and the wrapped sum has the value mod 256. -/
theorem addImmediateWrapsWithoutFlag : Obligations.AddImmediateWrapsWithoutFlag := by
  intro x kk s
  obtain ⟨t, next, value, frame⟩ := s.done_setV x (addWrap (s.getV x) kk)
  exact ⟨decode_addImm_word x kk, t, next, value ▸ addWrap_toNat _ _, frame⟩

/-- Settles O28: LD Vx, Vy writes one register. -/
theorem copyRegisterCopies : Obligations.CopyRegisterCopies := fun x y s =>
  ⟨decode_n8_word x y 0x0#4 .ldReg, s.done_setV x (s.getV y)⟩

/-- Settles O29: each of the three operations writes one register. -/
theorem logicOperationsWriteNoFlag : Obligations.LogicOperationsWriteNoFlag := fun x y s =>
  ⟨decode_n8_word x y 0x1#4 .orReg, decode_n8_word x y 0x2#4 .andReg, decode_n8_word x y 0x3#4 .xorReg,
    s.done_setV x (s.getV x ||| s.getV y), s.done_setV x (s.getV x &&& s.getV y),
    s.done_setV x (s.getV x ^^^ s.getV y)⟩

/-- Settles O35: RND writes one register, whatever byte stands at the port. -/
theorem randomIsMaskedDraw : Obligations.RandomIsMaskedDraw := fun x kk s =>
  ⟨decode_rnd_word x kk, s.done_setV x (s.rand &&& kk)⟩

/-! ## A result and a flag (R92) -/

@[simp] theorem State.writeResult_pc (s : State) (x : Fin 16) (a f : Byte) :
    (s.writeResult x a f).pc = s.pc := by
  obtain ⟨v, e⟩ := s.writeResult_eq x a f
  rw [e]

theorem State.writeResult_frame (s : State) (x : Fin 16) (a f : Byte) :
    UnchangedBut [x, 15] [] s (s.writeResult x a f) where
  regs r hr := by
    obtain ⟨hx, hf⟩ : r ≠ x ∧ r ≠ 15 := by simpa using hr
    exact s.getV_writeResult_ne a f hx hf
  parts p _ := by
    obtain ⟨v, e⟩ := s.writeResult_eq x a f
    rw [e]
    exact Part.same_of_writes_v_pc s v s.pc p

/-- Both orders of writing leave the two values in place when x is not F; when x = F the later write
stands, which VF_ALIAS names. -/
theorem State.resultAndFlag_writeResult (s : State) (x : Fin 16) (a f : Byte) :
    s.ResultAndFlag (s.writeResult x a f) x a f := by
  refine ⟨fun hx => ⟨?_, s.getV_writeResult_flag a f (Ne.symm hx)⟩, ?_, ?_⟩
  · rw [State.getV_writeResult]
    split <;> simp [hx]
  · rintro rfl h
    simp [State.getV_writeResult, h]
  · rintro rfl h
    simp [State.getV_writeResult, h]

/-- An instruction that writes a result and a flag and completes with `Next` changes V[x], V[F] and PC
only. -/
theorem State.done_writeResult (s : State) (x : Fin 16) (a f : Byte) :
    ∃ t, (s.writeResult x a f).done .next = .next t ∧ s.ResultAndFlag t x a f ∧ s.Advanced t ∧
      UnchangedBut [x, 15] [] s t := by
  have moved := (s.writeResult x a f).advanced_resolve_next
  rw [State.Advanced, State.writeResult_pc] at moved
  exact ⟨_, State.done_eq _ _, s.resultAndFlag_writeResult x a f, moved,
    (s.writeResult_frame x a f).trans (State.resolve_frame _ _)⟩

/-- Settles O30: ADD writes the wrapped sum and the carry. -/
theorem addSetsCarry : Obligations.AddSetsCarry := by
  intro x y s
  rw [← addCarry_eq_bit]
  exact ⟨decode_n8_word x y 0x4#4 .addReg, s.done_writeResult x (addWrap _ _) _⟩

/-- Settles O31: SUB writes the value and the flag of V[x] - V[y]. -/
theorem subtractFollowsSourceRule : Obligations.SubtractFollowsSourceRule := by
  intro x y s
  rw [← subValue_eq, ← subFlag_eq_bit]
  exact ⟨decode_n8_word x y 0x5#4 .subReg, s.done_writeResult x _ _⟩

/-- Settles O32: SUBN writes the value and the flag of V[y] - V[x]. -/
theorem reverseSubtractFollowsSourceRule : Obligations.ReverseSubtractFollowsSourceRule := by
  intro x y s
  rw [← subValue_eq, ← subFlag_eq_bit]
  exact ⟨decode_n8_word x y 0x7#4 .subnReg, s.done_writeResult x _ _⟩

/-! ## Shifts (R101, R103) -/

theorem State.setV_setV_same (s : State) (x : Fin 16) (a b : Byte) :
    (s.setV x a).setV x b = s.setV x b := by
  simp [State.setV]

/-- A shift is a result and a flag: what it shifts is the flag itself when x = F, which
`snapshot_flag_last` then overwrites. -/
theorem State.writeShift_eq_writeResult (s : State) (x : Fin 16) (g : Byte → Byte) (f : Byte) :
    s.writeShift x g f = s.writeResult x (g (if x = 15 then f else s.getV x)) f := by
  rw [State.writeShift, State.writeResult]
  split
  · simp only [State.setFlag_eq, State.getV_setV]
  · by_cases hx : x = 15
    · subst hx
      simp only [State.setFlag_eq, State.setV_setV_same]
    · rw [if_neg hx]

/-- A shift `g` that moves the bit `f` out: with x = F, the bit is shifted itself or written last. -/
theorem State.done_writeShift (s : State) (x : Fin 16) (g : Byte → Byte) (f : Byte) :
    ∃ t, (s.writeShift x g f).done .next = .next t ∧
      (x ≠ 15 → t.getV x = g (s.getV x) ∧ t.getV 15 = f) ∧
      (x = 15 → s.params.vfAlias = .asWritten → t.getV 15 = g f) ∧
      (x = 15 → s.params.vfAlias = .snapshotFlagLast → t.getV 15 = f) ∧
      s.Advanced t ∧ UnchangedBut [x, 15] [] s t := by
  rw [State.writeShift_eq_writeResult]
  obtain ⟨t, next, ⟨apart, written, last⟩, frame⟩ :=
    s.done_writeResult x (g (if x = 15 then f else s.getV x)) f
  refine ⟨t, next, fun hx => ?_, fun hx => ?_, last, frame⟩
  · rw [if_neg hx] at apart
    exact apart hx
  · rw [if_pos hx] at written
    exact written hx

/-- Settles O33: the result of a shift is half, the bit it moves out the parity, and half the parity
is 0. -/
theorem shiftRightMovesLowBitToFlag : Obligations.ShiftRightMovesLowBitToFlag := by
  intro x y s
  obtain ⟨t, next, apart, written, last, frame⟩ := s.done_writeShift x shrValue (shrFlag (s.getV x))
  refine ⟨decode_n8_word x y 0x6#4 fun x _ => .shr x, t, next, fun hx => ?_, ?_, ?_, frame⟩
  · obtain ⟨value, out⟩ := apart hx
    exact ⟨value ▸ shrValue_toNat _, out ▸ shrFlag_toNat _⟩
  · rintro rfl h
    apply BitVec.eq_of_toNat_eq
    rw [written rfl h, shrValue_toNat, shrFlag_toNat]
    exact Nat.div_eq_of_lt (Nat.mod_lt _ Nat.two_pos)
  · rintro rfl h
    rw [last rfl h, shrFlag_toNat]

/-- Settles O34: the result of a shift is the double mod 256, the bit it moves out the 128s, and the
double of a bit needs no wrap. -/
theorem shiftLeftMovesHighBitToFlag : Obligations.ShiftLeftMovesHighBitToFlag := by
  intro x y s
  obtain ⟨t, next, apart, written, last, frame⟩ := s.done_writeShift x shlValue (shlFlag (s.getV x))
  refine ⟨decode_n8_word x y 0xE#4 fun x _ => .shl x, t, next, fun hx => ?_, ?_, ?_, frame⟩
  · obtain ⟨value, out⟩ := apart hx
    exact ⟨value ▸ shlValue_toNat _, out ▸ shlFlag_toNat _⟩
  · rintro rfl h
    rw [written rfl h, shlValue_toNat, shlFlag_toNat]
    omega
  · rintro rfl h
    rw [last rfl h, shlFlag_toNat]

end Sys2Proof.Machine

/-! SUPPORT. The index register and the memory-block instructions (44_index_memory.md): the words of the
row n1 = F read back, what ADD I adds when its operand is V[F], what a block store leaves in memory, and
the bound that every block access checks first. -/

namespace Sys2Proof

open Sys2Proof.Machine

/-! ## The words of the index register and the memory blocks (R55) -/

theorem decode_ldI_word (nnn : Addr12) : decode (0xA#4 ++ nnn) = .ok (.ldI nnn) := by
  rw [decode, fieldN1_append_addr, fieldNnn_append_addr]
  rfl

/-- The row of n1 = F is `decodeNF`. -/
theorem decode_eq_decodeNF (op : Word) (h : fieldN1 op = 0xF#4) : decode op = decodeNF op := by
  rw [decode, h]
  rfl

/-- Under n1 = F the byte kk alone picks the constructor `ins`, which then gets x (R56); that `decodeNF`
has `ins` at `kk` is read off its table. -/
theorem decode_nF_word (x : Fin 16) (kk : Byte) (ins : Fin 16 → Instr)
    (row : ∀ op, fieldKk op = kk → decodeNF op = .ok (ins (fieldX op)) := by
      intro op h; rw [decodeNF, h]; rfl) :
    decode (0xF#4 ++ nib x ++ kk) = .ok (ins x) := by
  rw [decode_eq_decodeNF _ (fieldN1_append_byte ..), row _ (fieldKk_append_byte ..),
    fieldX_append_byte, nib_toFin]

end Sys2Proof

namespace Sys2Proof.Machine

open Sys2Proof

/-! ## Instructions that write I (R105, R107) -/

theorem State.setI_frame (s : State) (a : Word) : UnchangedBut [] [.i] s (s.setI a) where
  regs _ _ := rfl
  parts p hp := by
    cases p with
    | i => exact absurd (by decide) hp
    | mem => exact fun _ => rfl
    | faultStatus => exact ⟨rfl, rfl, rfl, rfl⟩
    | _ => rfl

/-- An instruction that writes I and completes with `Next` changes I and PC only. -/
theorem State.done_setI (s : State) (a : Word) :
    ∃ t, (s.setI a).done .next = .next t ∧ t.i = a ∧ s.Advanced t ∧ UnchangedBut [] [.i] s t :=
  ⟨_, State.done_eq _ _, rfl, State.advanced_resolve_next _,
    (s.setI_frame a).trans (State.resolve_frame _ _)⟩

/-- Settles O36: LD I, nnn writes I, and zero-extension keeps the value of nnn. -/
theorem loadIndexWritesAddress : Obligations.LoadIndexWritesAddress := by
  intro nnn s
  obtain ⟨t, next, value, frame⟩ := s.done_setI (absAddr nnn)
  exact ⟨decode_ldI_word nnn, t, next, value ▸ absAddr_toNat nnn, frame⟩

/-- Settles O38: LD F, Vx writes I, and the wrap is the value mod 4096. -/
theorem loadFontPointsAtGlyph : Obligations.LoadFontPointsAtGlyph := by
  intro x s
  obtain ⟨t, next, value, frame⟩ := s.done_setI (wrap12 ((s.getV x).toNat * 5))
  exact ⟨decode_nF_word x 0x29#8 .ldF, t, next, value ▸ wrap12_toNat _, frame⟩

/-! ## ADD I, Vx (R106) -/

/-- The byte that ADD I, Vx adds: V[x], but with x = F under `as_written` the flag written before it. -/
def State.indexAddend (s : State) (x : Fin 16) : Byte :=
  if x = 15 ∧ s.params.vfAlias = .asWritten then indexFlag s.i (s.getV x) else s.getV x

/-- The two orders of writing I and V[F] differ only in the byte that is added. -/
theorem exec_addI_eq (x : Fin 16) (s : State) :
    exec (.addI x) s =
      ((s.setI (indexSum s.i (s.indexAddend x))).setFlag (indexFlag s.i (s.getV x))).done .next := by
  simp only [exec, execAddI, State.indexAddend]
  split
  next asWritten =>
    simp only [asWritten, and_true, State.setFlag_eq, State.getV_setV]
    rfl
  next flagLast =>
    simp only [flagLast, reduceCtorEq, and_false, if_false]

/-- ADD I, Vx leaves the sum in I and the flag of I + V[x] in V[F], and changes nothing else but PC. -/
theorem exec_addI (x : Fin 16) (s : State) :
    ∃ t, exec (.addI x) s = .next t ∧ t.getV 15 = indexFlag s.i (s.getV x) ∧
      t.i = indexSum s.i (s.indexAddend x) ∧ s.Advanced t ∧ UnchangedBut [15] [.i] s t :=
  ⟨_, exec_addI_eq x s, State.getV_setV_same _ _ _, rfl, State.advanced_resolve_next _,
    ((s.setI_frame _).trans (State.setV_frame _ _ _)).trans (State.resolve_frame _ _)⟩

theorem indexFlag_eq_bit (i : Word) (b : Byte) : indexFlag i b = bit (i.toNat + b.toNat > 0xFFF) :=
  flag_eq_bit decide_eq_true_iff

theorem indexSum_toNat (i : Word) (b : Byte) : (indexSum i b).toNat = (i.toNat + b.toNat) % 4096 :=
  wrap12_toNat _

/-- Settles O37: the addend is V[x] unless x = F under `as_written`, where it is the flag that V[F]
keeps. -/
theorem addIndexSetsOverflow : Obligations.AddIndexSetsOverflow := by
  intro x s
  obtain ⟨t, next, overflow, sum, frame⟩ := exec_addI x s
  have value := congrArg BitVec.toNat sum
  rw [indexSum_toNat] at value
  refine ⟨decode_nF_word x 0x1E#8 .addI, t, next, overflow.trans (indexFlag_eq_bit _ _),
    fun whole => ?_, fun hx asWritten => ?_, frame⟩
  · have addend : s.indexAddend x = s.getV x :=
      if_neg fun ⟨hx, asWritten⟩ => by simp [hx, asWritten] at whole
    rw [value, addend]
  · have addend : s.indexAddend x = indexFlag s.i (s.getV x) := if_pos ⟨hx, asWritten⟩
    rw [value, addend, overflow]

/-! ## The bound of a block access (R43) -/

/-- A block of `n + 1` bytes from I upward that ends in memory is accessed. -/
theorem State.access_of_fits (s : State) {n : Nat} (fits : s.i.toNat + n ≤ 0xFFF) (o o' : Outcome State) :
    (if inBounds s.base (n + 1) then o else o') = o :=
  if_pos ((inBounds_iff _ _).mpr (.inr (by simp only [State.base, memSize]; omega)))

/-- A block of `n + 1` bytes from I upward that ends above memory raises MemBounds with base I. -/
theorem State.memBounds_of_beyond (s : State) {n : Nat} (beyond : s.i.toNat + n > 0xFFF)
    (o : Outcome State) (ins : Instr) :
    ∃ t, (if inBounds s.base (n + 1) then o else s.raise (.memBounds s.i) ins) = .next t ∧
      s.EnteredFault t 3#8 s.i (encode ins) := by
  have outside : ¬inBounds s.base (n + 1) = true := by
    rw [inBounds_iff]; simp only [State.base, memSize]; omega
  exact ⟨_, if_neg outside, s.enteredFault_enterFault _ _⟩

/-! ## Block stores (R108, R109) -/

theorem State.storeBytes_frame (s : State) (base : Nat) (bs : List Byte) :
    UnchangedBut [] [.mem] s (s.storeBytes base bs) where
  regs _ _ := rfl
  parts p hp := by
    cases p with
    | mem => exact absurd (by decide) hp
    | faultStatus => exact ⟨rfl, rfl, rfl, rfl⟩
    | _ => rfl

/-- A byte of the block reads back at its place. -/
theorem State.readByte_storeBytes_inside (s : State) {base r : Nat} {bs : List Byte} {b : Byte}
    (fits : base + bs.length ≤ memSize) (wf : Memory.wf s.params.font s.mem = true)
    (hr : bs[r]? = some b) : (s.storeBytes base bs).readByte (base + r) = b := by
  rw [s.readByte_storeBytes _ _ _ fits wf, if_pos (Nat.le_add_right _ _), Nat.add_sub_cancel_left, hr,
    Option.getD_some]

theorem State.storeBytes_unchanged_outside (s : State) {base : Nat} {bs : List Byte}
    (fits : base + bs.length ≤ memSize) (wf : Memory.wf s.params.font s.mem = true) :
    MemoryUnchangedOutside base bs.length s (s.storeBytes base bs) := by
  intro a ha
  rw [s.readByte_storeBytes _ _ _ fits wf]
  obtain below | above := ha
  · rw [if_neg (by omega)]
  · rw [List.getElem?_eq_none (by omega), Option.getD_none, ite_self]

/-- An instruction that stores a block and completes with `Next` changes the bytes of the block and PC
only. -/
theorem State.done_storeBytes (s : State) {base : Nat} {bs : List Byte}
    (fits : base + bs.length ≤ memSize) (wf : Memory.wf s.params.font s.mem = true) :
    ∃ t, (s.storeBytes base bs).done .next = .next t ∧
      (∀ r b, bs[r]? = some b → t.readByte (base + r) = b) ∧
      MemoryUnchangedOutside base bs.length s t ∧ s.Advanced t ∧ UnchangedBut [] [.mem] s t :=
  ⟨_, State.done_eq _ _, fun _ _ => s.readByte_storeBytes_inside fits wf,
    s.storeBytes_unchanged_outside fits wf, State.advanced_resolve_next _,
    (s.storeBytes_frame base bs).trans (State.resolve_frame _ _)⟩

/-- A number that does not exceed a byte is kept when narrowed to a byte (R91). -/
theorem toNat_ofNat_of_le (b : Byte) {n : Nat} (h : n ≤ b.toNat) : (BitVec.ofNat 8 n).toNat = n := by
  rw [BitVec.toNat_ofNat, Nat.mod_eq_of_lt (h.trans_lt b.isLt)]

/-- Settles O39: LD B stores a block of three digits, none of which exceeds the byte it comes from. -/
theorem storeDigitsWritesThreeBytes : Obligations.StoreDigitsWritesThreeBytes := by
  intro x s wf
  refine ⟨decode_nF_word x 0x33#8 .ldB, fun fits => ?_, fun beyond => s.memBounds_of_beyond beyond _ _⟩
  have inside : s.base + (bcdDigits (s.getV x)).length ≤ memSize := by
    simp only [State.base, bcdDigits, List.length_cons, List.length_nil, memSize]; omega
  obtain ⟨t, next, bytes, frame⟩ := s.done_storeBytes inside wf
  have hundreds : t.readByte s.i.toNat = BitVec.ofNat 8 ((s.getV x).toNat / 100) := bytes 0 _ rfl
  have tens : t.readByte (s.i.toNat + 1) = BitVec.ofNat 8 ((s.getV x).toNat / 10 % 10) := bytes 1 _ rfl
  have ones : t.readByte (s.i.toNat + 2) = BitVec.ofNat 8 ((s.getV x).toNat % 10) := bytes 2 _ rfl
  refine ⟨t, (s.access_of_fits fits _ _).trans next, ?_, ?_, ?_, frame⟩
  · rw [hundreds, toNat_ofNat_of_le (s.getV x) (Nat.div_le_self _ _)]
  · rw [tens, toNat_ofNat_of_le (s.getV x) ((Nat.mod_le _ _).trans (Nat.div_le_self _ _))]
  · rw [ones, toNat_ofNat_of_le (s.getV x) (Nat.mod_le _ _)]

/-- Settles O40: LD [I], Vx stores the block V0..Vx. -/
theorem dumpStoresRegisters : Obligations.DumpStoresRegisters := by
  intro x s wf
  refine ⟨decode_nF_word x 0x55#8 .ldMemVx, fun fits => ?_,
    fun beyond => s.memBounds_of_beyond beyond _ _⟩
  have inside : s.base + (s.regBlock x).length ≤ memSize := by
    simp only [s.regBlock_length, State.base, memSize]; omega
  obtain ⟨t, next, bytes, outside, frame⟩ := s.done_storeBytes inside wf
  rw [s.regBlock_length] at outside
  exact ⟨t, (s.access_of_fits fits _ _).trans next, fun r hr => bytes r _ (s.regBlock_get x r hr),
    outside, frame⟩

/-! ## Block loads (R110) -/

theorem State.loadRegs_same (s : State) (x : Fin 16) (base : Nat) (p : Part) :
    p.same s (s.loadRegs x base) := by
  obtain ⟨v, e⟩ := s.loadRegs_eq x base
  rw [e]
  exact Part.same_of_writes_v_pc s v s.pc p

@[simp] theorem State.loadRegs_pc (s : State) (x : Fin 16) (base : Nat) : (s.loadRegs x base).pc = s.pc := by
  obtain ⟨v, e⟩ := s.loadRegs_eq x base
  rw [e]

/-- An instruction that loads V0..Vx from a block and completes with `Next` changes those registers and PC
only. -/
theorem State.done_loadRegs (s : State) (x : Fin 16) (base : Nat) :
    ∃ t, (s.loadRegs x base).done .next = .next t ∧
      (∀ r : Fin 16, t.getV r = if r.val ≤ x.val then s.readByte (base + r.val) else s.getV r) ∧
      s.Advanced t ∧ ∀ p : Part, p.same s t := by
  have moved := (s.loadRegs x base).advanced_resolve_next
  rw [State.Advanced, State.loadRegs_pc] at moved
  refine ⟨_, State.done_eq _ _, fun r => ?_, moved, fun p => ?_⟩
  · rw [State.getV_resolve, State.getV_loadRegs]
  · exact Part.same_trans (s.loadRegs_same x base p)
      ((State.resolve_frame _ _).parts p List.not_mem_nil)

/-- Settles O41: LD Vx, [I] loads a block. -/
theorem blockLoadReadsRegisters : Obligations.BlockLoadReadsRegisters := by
  intro x s
  refine ⟨decode_nF_word x 0x65#8 .ldVxMem, fun fits => ?_,
    fun beyond => s.memBounds_of_beyond beyond _ _⟩
  obtain ⟨t, next, frame⟩ := s.done_loadRegs x s.base
  exact ⟨t, (s.access_of_fits fits _ _).trans next, frame⟩

end Sys2Proof.Machine

/-! SUPPORT. The keypad and timer instructions (45_keypad_timers.md): the words of the row n1 = E read
back, what a key skip answers for a key number in range and above it, what the key wait answers, and the
frames of the two timer writes. -/

namespace Sys2Proof

open Sys2Proof.Machine

/-! ## The words of the key skips (R55) -/

/-- The row of n1 = E is `decodeNE`. -/
theorem decode_eq_decodeNE (op : Word) (h : fieldN1 op = 0xE#4) : decode op = decodeNE op := by
  rw [decode, h]
  rfl

/-- Under n1 = E the byte kk alone picks the constructor `ins`, which then gets x (R56); that `decodeNE`
has `ins` at `kk` is read off its table. -/
theorem decode_nE_word (x : Fin 16) (kk : Byte) (ins : Fin 16 → Instr)
    (row : ∀ op, fieldKk op = kk → decodeNE op = .ok (ins (fieldX op)) := by
      intro op h; rw [decodeNE, h]; rfl) :
    decode (0xE#4 ++ nib x ++ kk) = .ok (ins x) := by
  rw [decode_eq_decodeNE _ (fieldN1_append_byte ..), row _ (fieldKk_append_byte ..),
    fieldX_append_byte, nib_toFin]

end Sys2Proof

namespace Sys2Proof.Machine

open Sys2Proof

/-! ## Key skips (R111, R112, R122) -/

/-- A key number in range raises no KeyIndex, and the instruction is the skip on what `test` computes. -/
theorem State.skip_of_key_le (s : State) {b : Byte} (inRange : b.toNat ≤ 15) (raised : Outcome State)
    {test : Bool} {c : Prop} (tests : test = true ↔ c) :
    ∃ t, (if 15 < b.toNat then raised else s.done (skipIf test)) = .next t ∧
      s.SkippedIf c t ∧ UnchangedBut [] [] s t := by
  obtain rfl : (test = true) = c := propext tests
  rw [if_neg (Nat.not_lt.mpr inRange)]
  simpa only [Bool.decide_eq_true] using s.done_skipIf (test = true)

/-- A key number above 15 raises KeyIndex with that number as fault_addr. -/
theorem State.keyIndex_of_key_gt (s : State) {b : Byte} (above : 15 < b.toNat) (o : Outcome State)
    (ins : Instr) :
    ∃ t, (if 15 < b.toNat then s.raise (.keyIndex b) ins else o) = .next t ∧
      s.EnteredFault t 5#8 (BitVec.ofNat 16 b.toNat) (encode ins) := by
  rw [if_pos above, BitVec.ofNat_toNat]
  exact ⟨_, s.raise_eq _ _, s.enteredFault_enterFault _ _⟩

/-- Settles O42: both instructions check the key number first, and then are a skip on the sampled key or
on its negation. -/
theorem keySkipsTestSampledKey : Obligations.KeySkipsTestSampledKey := fun x s =>
  ⟨decode_nE_word x 0x9E#8 .skp, decode_nE_word x 0xA1#8 .sknp,
    fun inRange => ⟨s.skip_of_key_le inRange _ Iff.rfl,
      s.skip_of_key_le inRange _ (.of_eq (Bool.not_eq_true' _))⟩,
    fun above => ⟨s.keyIndex_of_key_gt above _ (.skp x), s.keyIndex_of_key_gt above _ (.sknp x)⟩⟩

/-! ## The key wait (R113) -/

/-- `Block` leaves the very same state, PC included (R71). -/
theorem State.done_block (s : State) : s.done .block = .next s := rfl

theorem exec_ldVxK_of_lowestKey_none {s : State} (x : Fin 16) (h : s.lowestKey = none) :
    exec (.ldVxK x) s = .next s := by
  rw [exec, execLdVxK, h, s.done_block]

theorem exec_ldVxK_of_lowestKey_some {s : State} {k : Nat} (x : Fin 16) (h : s.lowestKey = some k) :
    exec (.ldVxK x) s = (s.setV x (BitVec.ofNat 8 k)).done .next := by
  rw [exec, execLdVxK, h]

/-- Settles O43: with no key pressed the key wait is `Block`; else it writes one register, and a key
number fits a byte. -/
theorem keyWaitBlocksOrStoresLowestKey : Obligations.KeyWaitBlocksOrStoresLowestKey := by
  intro x s
  refine ⟨decode_nF_word x 0x0A#8 .ldVxK, fun released => ?_, fun k inRange down least => ?_⟩
  · have none_down : s.lowestKey = none := s.lowestKey_none.mpr fun k _ => by
      rw [State.keyDown, released, BitVec.getLsbD_zero]
    exact exec_ldVxK_of_lowestKey_none x none_down
  · have lowest : s.lowestKey = some k := (s.lowestKey_some k).mpr ⟨inRange, down, least⟩
    obtain ⟨t, next, value, frame⟩ := s.done_setV x (BitVec.ofNat 8 k)
    refine ⟨t, (exec_ldVxK_of_lowestKey_some x lowest).trans next, ?_, frame⟩
    rw [value, BitVec.toNat_ofNat, Nat.mod_eq_of_lt (by omega)]

/-! ## Timers (R114, R115, R116) -/

/-- Writing the timers keeps every piece but a timer whose value changes. -/
theorem Part.same_of_writes_timers (s : State) (dt st : Byte) (p : Part) (hdt : p = .dt → dt = s.dt)
    (hst : p = .st → st = s.st) : p.same s { s with dt := dt, st := st } := by
  cases p with
  | dt => exact hdt rfl
  | st => exact hst rfl
  | mem => exact fun _ => rfl
  | faultStatus => exact ⟨rfl, rfl, rfl, rfl⟩
  | _ => rfl

theorem State.setDt_frame (s : State) (b : Byte) : UnchangedBut [] [.dt] s (s.setDt b) where
  regs _ _ := rfl
  parts p hp := Part.same_of_writes_timers s b s.st p
    (fun isDt => absurd (List.mem_singleton.mpr isDt) hp) fun _ => rfl

theorem State.setSt_frame (s : State) (b : Byte) : UnchangedBut [] [.st] s (s.setSt b) where
  regs _ _ := rfl
  parts p hp := Part.same_of_writes_timers s s.dt b p (fun _ => rfl)
    fun isSt => absurd (List.mem_singleton.mpr isSt) hp

/-- In mode RUN the sound output is on exactly while ST is nonzero (R24). -/
theorem State.soundOn_iff_of_run {s : State} (run : s.mode = .run) : s.soundOn = true ↔ s.st ≠ 0#8 := by
  simp [State.soundOn, run]

/-- Settles O44: LD Vx, DT writes one register. -/
theorem readDelayTimer : Obligations.ReadDelayTimer := fun x s =>
  ⟨decode_nF_word x 0x07#8 .ldVxDt, s.done_setV x s.dt⟩

/-- Settles O45: LD DT, Vx writes DT, then PC, and the frames of the two writes compose. -/
theorem setDelayTimer : Obligations.SetDelayTimer := fun x s =>
  ⟨decode_nF_word x 0x15#8 .ldDtVx, _, State.done_eq _ _, rfl, State.advanced_resolve_next _,
    (s.setDt_frame _).trans (State.resolve_frame _ _)⟩

/-- Settles O46: LD ST, Vx writes ST, then PC, and the mode is kept, so sound_on follows the value
written. -/
theorem setSoundTimer : Obligations.SetSoundTimer := fun x s =>
  ⟨decode_nF_word x 0x18#8 .ldStVx, _, State.done_eq _ _, rfl, State.advanced_resolve_next _,
    State.soundOn_iff_of_run (s := (s.setSt (s.getV x)).resolve .next),
    (s.setSt_frame _).trans (State.resolve_frame _ _)⟩

end Sys2Proof.Machine

/-! SUPPORT. The tick after the word (60_exceptions.md, R130): what no instruction writes, the clock of a
cycle among it, and the shape of a cycle that ends in RUN. -/

namespace Sys2Proof.Machine

open Sys2Proof

/-! ## What an instruction may write -/

/-- `s` with the pieces that a completing instruction may write taken from `u`: the registers, the return
stack, the timers, the frame buffer and memory. -/
def State.withWritesOf (s u : State) : State :=
  { s with
    v := u.v, i := u.i, pc := u.pc, sp := u.sp, stack := u.stack, dt := u.dt, st := u.st, fb := u.fb
    fbChanged := u.fbChanged, mem := u.mem }

theorem State.eq_withWritesOf_of_push? {s u : State} {a : Word} (h : s.push? a = some u) :
    u = s.withWritesOf u := by
  unfold State.push? at h
  split at h <;> cases h
  rfl

theorem State.eq_withWritesOf_of_pop? {s u : State} {a : Word} (h : s.pop? = some (u, a)) :
    u = s.withWritesOf u := by
  unfold State.pop? at h
  split at h <;> cases h
  rfl

/-- The resolver, too, changes only what an instruction may write. -/
theorem State.resolve_eq_withWritesOf {s u : State} (d : Directive) (h : u = s.withWritesOf u) :
    u.resolve d = s.withWritesOf (u.resolve d) :=
  congrArg (State.resolve · d) h

theorem State.writeResult_eq_withWritesOf (s : State) (x : Fin 16) (a f : Byte) :
    s.writeResult x a f = s.withWritesOf (s.writeResult x a f) := by
  obtain ⟨v, e⟩ := s.writeResult_eq x a f
  rw [e]; rfl

theorem State.writeShift_eq_withWritesOf (s : State) (x : Fin 16) (g : Byte → Byte) (f : Byte) :
    s.writeShift x g f = s.withWritesOf (s.writeShift x g f) := by
  obtain ⟨v, e⟩ := s.writeShift_eq x g f
  rw [e]; rfl

/-- What a next state of an instruction may be: completed, with writes to the pieces of `withWritesOf`
only, or the entry of a fault. -/
def State.CompletedOrFaulted (s : State) (i : Instr) (t : State) : Prop :=
  t = s.withWritesOf t ∨ ∃ f, t = s.enterFault f (encode i)

theorem Ensures.completed {s u : State} {i : Instr} {d : Directive} (h : u = s.withWritesOf u) :
    Ensures (u.done d) (s.CompletedOrFaulted i) :=
  .done (.inl (State.resolve_eq_withWritesOf d h))

theorem Ensures.faulted {s : State} {f : Fault} {i : Instr} :
    Ensures (s.raise f i) (s.CompletedOrFaulted i) :=
  .raise (.inr ⟨f, rfl⟩)

/-- An instruction completes or enters a fault, and writes nothing else. -/
theorem exec_completes_or_faults (i : Instr) (s : State) :
    Ensures (exec i s) (s.CompletedOrFaulted i) := by
  cases i with
  | cls | jp _ | seImm _ _ | sneImm _ _ | seReg _ _ | sneReg _ _ | ldImm _ _ | addImm _ _ | ldReg _ _
  | orReg _ _ | andReg _ _ | xorReg _ _ | rnd _ _ | ldI _ | jpV0 _ | ldF _ | ldVxDt _ | ldDtVx _
  | ldStVx _ => exact .completed rfl
  | addReg _ _ | subReg _ _ | subnReg _ _ => exact .completed (s.writeResult_eq_withWritesOf ..)
  | shr _ | shl _ => exact .completed (s.writeShift_eq_withWritesOf ..)
  | ret =>
    simp only [exec, execRet]
    split
    next h => exact .completed (State.eq_withWritesOf_of_pop? h)
    next => exact .faulted
  | call nnn =>
    simp only [exec, execCall]
    split
    next h => exact .completed (State.eq_withWritesOf_of_push? h)
    next => exact .faulted
  | ldVxK x =>
    simp only [exec, execLdVxK]
    split <;> exact .completed rfl
  | addI x =>
    obtain ⟨a, e⟩ := execAddI_eq x s
    rw [exec, e]
    exact .completed rfl
  | skp _ | sknp _ =>
    simp only [exec, execSkp, execSknp]
    split
    · exact .faulted
    · exact .completed rfl
  | drw _ _ _ | ldB _ | ldMemVx _ | ldVxMem _ =>
    simp only [exec, execDrw, execLdB, execLdMemVx, execLdVxMem]
    split
    · exact .completed rfl
    · exact .faulted

/-! ## The clock of a cycle -/

/-- `t` has the times and the parameters of `s`, which decide whether a tick is due. -/
structure State.SameClock (s t : State) : Prop where
  now : t.now = s.now
  lastTick : t.lastTick = s.lastTick
  params : t.params = s.params

theorem State.SameClock.due_iff {s t : State} (h : s.SameClock t) : t.Due ↔ s.Due := by
  rw [State.Due, State.Due, h.now, h.lastTick, h.params]

/-- The diagnostic is no part of the clock. -/
theorem State.SameClock.of_clearDiag {s t : State} (h : s.clearDiag.SameClock t) : s.SameClock t :=
  ⟨h.now, h.lastTick, h.params⟩

theorem State.CompletedOrFaulted.sameClock {s t : State} {i : Instr} (h : s.CompletedOrFaulted i t) :
    s.SameClock t := by
  obtain completed | ⟨f, rfl⟩ := h
  · rw [completed]
    exact ⟨rfl, rfl, rfl⟩
  · exact ⟨rfl, rfl, rfl⟩

/-- Whatever the word is, executing it leaves the clock alone. -/
theorem State.executeWord_keeps_clock (s : State) (op : Word) : Ensures (s.executeWord op) s.SameClock := by
  intro u hu
  cases hop : decode op with
  | ok i =>
    rw [State.executeWord, hop] at hu
    exact (exec_completes_or_faults i s u hu).sameClock
  | error e =>
    rw [State.executeWord_of_error s hop] at hu
    cases hu
    exact ⟨rfl, rfl, rfl⟩

/-! ## A cycle that ends in RUN -/

theorem cycle_of_fetch_error {s : State} {f : Fault} (h : s.fetch = .error f) :
    cycle s = .next (s.clearDiag.enterFault f 0#16) := by
  rw [cycle, State.fetch_clearDiag, h]

@[simp] theorem State.tickUnlessFaulted_mode (s : State) : s.tickUnlessFaulted.mode = s.mode := by
  unfold State.tickUnlessFaulted
  split <;> rfl

/-- A cycle that ends in RUN is a fetched word, executed and followed by the tick. -/
theorem cycle_eq_tick_of_run {s t : State} (hcycle : cycle s = .next t) (hrun : t.mode = .run) :
    ∃ op u, s.fetch = .ok op ∧ s.clearDiag.executeWord op = .next u ∧ t = u.tick := by
  cases hfetch : s.fetch with
  | error f =>
    rw [cycle_of_fetch_error hfetch] at hcycle
    cases hcycle
    cases hrun
  | ok op =>
    rw [cycle_of_fetch_ok hfetch, mapNext_eq_next] at hcycle
    obtain ⟨u, hu, rfl⟩ := hcycle
    rw [State.tickUnlessFaulted_mode] at hrun
    exact ⟨op, u, rfl, hu, State.tickUnlessFaulted_of_run hrun⟩

/-- Settles O11: the word leaves the clock of the cycle's start, so the tick of the state it gives is due
exactly when it was due at the start. -/
theorem tickFollowsEveryNonFaultingCycle : Obligations.TickFollowsEveryNonFaultingCycle := by
  intro s t _ hcycle hrun
  obtain ⟨op, u, hfetch, hu, rfl⟩ := cycle_eq_tick_of_run hcycle hrun
  have clock : s.SameClock u := (s.clearDiag.executeWord_keeps_clock op u hu).of_clearDiag
  refine ⟨op, u, hfetch, hu, u.tick_pc, u.tick_frame, fun due => ?_, fun notDue => ?_⟩
  · rw [← clock.now]
    exact State.tick_of_due (clock.due_iff.mpr due)
  · rw [← clock.lastTick]
    exact State.tick_of_not_due (mt clock.due_iff.mp notDue)

end Sys2Proof.Machine

/-! SUPPORT. The program load (R137, R139): what it leaves in the registers, the stack, the frame buffer
and each region of memory. -/

namespace Sys2Proof.Machine

open Sys2Proof

/-! ## Registers, stack and frame buffer after a load -/

@[simp] theorem State.getV_load (s : State) (bytes : List Byte) (n : Nat) (r : Fin 16) :
    (s.load bytes n).getV r = 0#8 :=
  Vector.getElem_replicate r.isLt

theorem State.stack_load (s : State) (bytes : List Byte) (n : Nat) (j : Fin 16) :
    (s.load bytes n).stack[j] = 0#16 :=
  Vector.getElem_replicate j.isLt

theorem State.fb_load (s : State) (bytes : List Byte) (n : Nat) (y : Fin 32) (x : Fin 64) :
    (s.load bytes n).fb[y][x] = false := by
  have row : (s.load bytes n).fb[y] = Vector.replicate 64 false := Vector.getElem_replicate y.isLt
  rw [row]
  exact Vector.getElem_replicate x.isLt

/-! ## Memory after a load -/

/-- The truncated program ends inside memory (R139). -/
theorem programBase_add_length_take_le (bytes : List Byte) :
    programBase + (bytes.take maxProgram).length ≤ memSize := by
  have fits : (bytes.take maxProgram).length ≤ maxProgram := List.length_take_le ..
  have room : programBase + maxProgram = memSize := rfl
  omega

theorem Memory.initial_of_lt (font : Config.Font) {a : Nat} (h : a < 80) :
    Memory.initial font a = font[a] := dif_pos h

theorem Memory.initial_of_le (font : Config.Font) {a : Nat} (h : 80 ≤ a) :
    Memory.initial font a = 0#8 := dif_neg (by omega)

/-- The load starts from the empty, hence canonical, memory list, so the law of block writes applies in
every state. -/
theorem State.readByte_load (s : State) (bytes : List Byte) (n a : Nat) :
    (s.load bytes n).readByte a =
      if programBase ≤ a then
        ((bytes.take maxProgram)[a - programBase]?).getD (Memory.initial s.params.font a)
      else Memory.initial s.params.font a :=
  Memory.read_writeBytes s.params.font (bytes.take maxProgram) [] programBase a
    (programBase_add_length_take_le bytes) (Memory.wf_nil s.params.font)

theorem State.readByte_load_below (s : State) (bytes : List Byte) (n : Nat) {a : Nat}
    (h : a < programBase) : (s.load bytes n).readByte a = Memory.initial s.params.font a := by
  rw [State.readByte_load, if_neg (by omega)]

theorem State.readByte_load_program (s : State) (bytes : List Byte) (n : Nat) {k : Nat}
    (h : k < maxProgram) : (s.load bytes n).readByte (programBase + k) = (bytes[k]?).getD 0#8 := by
  have aboveFont : 80 ≤ programBase + k := Nat.le_add_right_of_le (by decide)
  rw [State.readByte_load, if_pos (Nat.le_add_right _ _), Nat.add_sub_cancel_left,
    List.getElem?_take_of_lt h, Memory.initial_of_le _ aboveFont]

/-- Settles O56: each clause is the load's own value for that item; memory below 0x200 keeps the initial
contents, the font and then zeros, and from 0x200 it holds the truncated program. -/
theorem loadResetsEverything : Obligations.LoadResetsEverything := by
  intro s bytes n
  have font : ∀ a (h : a < 80), (s.load bytes n).readByte a = s.params.font[a] := fun a h => by
    have below : a < programBase := h.trans (by decide)
    rw [s.readByte_load_below bytes n below, Memory.initial_of_lt _ h]
  have gap : ∀ a, 80 ≤ a → a < 0x200 → (s.load bytes n).readByte a = 0#8 := fun a h below => by
    rw [s.readByte_load_below bytes n below, Memory.initial_of_le _ h]
  have program : ∀ k, k < 3584 → (s.load bytes n).readByte (0x200 + k) = (bytes[k]?).getD 0#8 :=
    fun _ => s.readByte_load_program bytes n
  exact ⟨s.getV_load bytes n, rfl, rfl, rfl, s.stack_load bytes n, rfl, rfl, s.fb_load bytes n, rfl, rfl,
    rfl, rfl, rfl, rfl, rfl, rfl, font, gap, program⟩

end Sys2Proof.Machine

/-! SUPPORT. Decoder and encoder against each other (30_encoding.md): a word read back from its fields,
everything `decode` can do, the fixed bits of a row, and the words that are no instruction. -/

namespace Sys2Proof

open Sys2Proof.Machine Sys2Proof.Laws

/-! ## A word and its two bytes (R40) -/

@[simp] theorem wordOfBytes_highByte_lowByte (w : Word) : wordOfBytes (highByte w) (lowByte w) = w := by
  change w.extractLsb' 8 8 ++ w.extractLsb' 0 8 = w
  rw [BitVec.extractLsb'_append_extractLsb'_eq_extractLsb' (by decide)]
  exact BitVec.extractLsb'_eq_self

theorem decodeBytes_cons_cons (hi lo : Byte) (rest : List Byte) :
    decodeBytes (hi :: lo :: rest) = (decode (wordOfBytes hi lo)).map fun i => (i, rest) := rfl

/-! ## Decoding an encoded instruction (R55, R56) -/

theorem decode_encode (i : Instr) : decode (encode i) = .ok i := by
  cases i with
  | cls | ret => rfl
  | jp nnn => exact decode_jp_word nnn
  | call nnn => exact decode_call_word nnn
  | seImm x kk => exact decode_seImm_word x kk
  | sneImm x kk => exact decode_sneImm_word x kk
  | seReg x y => exact (registerSkipsIgnoreLastNibble x y 0).1
  | ldImm x kk => exact decode_ldImm_word x kk
  | addImm x kk => exact decode_addImm_word x kk
  | ldReg x y => exact decode_n8_word x y 0x0#4 .ldReg
  | orReg x y => exact decode_n8_word x y 0x1#4 .orReg
  | andReg x y => exact decode_n8_word x y 0x2#4 .andReg
  | xorReg x y => exact decode_n8_word x y 0x3#4 .xorReg
  | addReg x y => exact decode_n8_word x y 0x4#4 .addReg
  | subReg x y => exact decode_n8_word x y 0x5#4 .subReg
  | shr x => exact decode_n8_word x 0 0x6#4 fun x _ => .shr x
  | subnReg x y => exact decode_n8_word x y 0x7#4 .subnReg
  | shl x => exact decode_n8_word x 0 0xE#4 fun x _ => .shl x
  | sneReg x y => exact (registerSkipsIgnoreLastNibble x y 0).2
  | ldI nnn => exact decode_ldI_word nnn
  | jpV0 nnn => exact decode_jpV0_word nnn
  | rnd x kk => exact decode_rnd_word x kk
  | drw x y n => exact decode_drw_nibbles x y n
  | skp x => exact decode_nE_word x 0x9E#8 .skp
  | sknp x => exact decode_nE_word x 0xA1#8 .sknp
  | ldVxDt x => exact decode_nF_word x 0x07#8 .ldVxDt
  | ldVxK x => exact decode_nF_word x 0x0A#8 .ldVxK
  | ldDtVx x => exact decode_nF_word x 0x15#8 .ldDtVx
  | ldStVx x => exact decode_nF_word x 0x18#8 .ldStVx
  | addI x => exact decode_nF_word x 0x1E#8 .addI
  | ldF x => exact decode_nF_word x 0x29#8 .ldF
  | ldB x => exact decode_nF_word x 0x33#8 .ldB
  | ldMemVx x => exact decode_nF_word x 0x55#8 .ldMemVx
  | ldVxMem x => exact decode_nF_word x 0x65#8 .ldVxMem

/-- Settles O1: the word decodes by `decode_encode`, and its two bytes make up that word again. -/
theorem decodeOfEncodeIsIdentity : Obligations.DecodeOfEncodeIsIdentity := by
  intro i rest
  refine ⟨decode_encode i, ?_⟩
  change decodeBytes (highByte (encode i) :: lowByte (encode i) :: rest) = _
  rw [decodeBytes_cons_cons, wordOfBytes_highByte_lowByte, decode_encode]
  rfl

/-! ## A word is made of its fields (R51, R52) -/

theorem encodeNnn_fields {w : Word} {n1 : BitVec 4} (h1 : fieldN1 w = n1) :
    encodeNnn n1 (fieldNnn w) = w := by
  subst h1
  change w.extractLsb' 12 4 ++ w.extractLsb' 0 12 = w
  rw [BitVec.extractLsb'_append_extractLsb'_eq_extractLsb' (by decide)]
  exact BitVec.extractLsb'_eq_self

theorem encodeXkk_fields {w : Word} {n1 : BitVec 4} {kk : Byte} (h1 : fieldN1 w = n1)
    (hkk : fieldKk w = kk) : encodeXkk n1 (fieldX w) kk = w := by
  subst h1 hkk
  change w.extractLsb' 12 4 ++ w.extractLsb' 8 4 ++ w.extractLsb' 0 8 = w
  rw [BitVec.extractLsb'_append_extractLsb'_eq_extractLsb' (by decide),
    BitVec.extractLsb'_append_extractLsb'_eq_extractLsb' (by decide)]
  exact BitVec.extractLsb'_eq_self

theorem encodeXyn_fields {w : Word} {n1 : BitVec 4} {n : Fin 16} (h1 : fieldN1 w = n1)
    (hn : fieldN w = n) : encodeXyn n1 (fieldX w) (fieldY w) n = w := by
  subst h1 hn
  change w.extractLsb' 12 4 ++ w.extractLsb' 8 4 ++ w.extractLsb' 4 4 ++ w.extractLsb' 0 4 = w
  rw [BitVec.extractLsb'_append_extractLsb'_eq_extractLsb' (by decide),
    BitVec.extractLsb'_append_extractLsb'_eq_extractLsb' (by decide),
    BitVec.extractLsb'_append_extractLsb'_eq_extractLsb' (by decide)]
  exact BitVec.extractLsb'_eq_self

/-! ## Clearing an ignored field (R54, R57) -/

/-- A mask acts on each nibble alone. -/
theorem encodeXyn_and (n1 m1 mx my mn : BitVec 4) (x y n : Fin 16) :
    encodeXyn n1 x y n &&& (m1 ++ mx ++ my ++ mn) =
      (n1 &&& m1) ++ (nib x &&& mx) ++ (nib y &&& my) ++ (nib n &&& mn) := by
  rw [← BitVec.and_append, ← BitVec.and_append, ← BitVec.and_append]
  rfl

theorem encodeXyn_clear_n {w : Word} {n1 : BitVec 4} (h1 : fieldN1 w = n1) :
    encodeXyn n1 (fieldX w) (fieldY w) 0 = w &&& 0xFFF0#16 := by
  have masked := encodeXyn_and n1 (.allOnes 4) (.allOnes 4) (.allOnes 4) 0#4 (fieldX w) (fieldY w)
    (fieldN w)
  simp only [encodeXyn_fields h1 rfl, BitVec.and_allOnes, BitVec.and_zero] at masked
  exact masked.symm

theorem encodeXyn_clear_y {w : Word} {n1 : BitVec 4} {n : Fin 16} (h1 : fieldN1 w = n1)
    (hn : fieldN w = n) : encodeXyn n1 (fieldX w) 0 n = w &&& 0xFF0F#16 := by
  have masked := encodeXyn_and n1 (.allOnes 4) (.allOnes 4) 0#4 (.allOnes 4) (fieldX w) (fieldY w) n
  simp only [encodeXyn_fields h1 hn, BitVec.and_allOnes, BitVec.and_zero] at masked
  exact masked.symm

/-! ## Encoding a decoded word (R62) -/

/-- `i` is an instruction whose encoding is `w` with the ignored bits cleared. -/
def EncodesUsedBits (w : Word) (i : Instr) : Prop := encode i = w &&& usedBits i

theorem EncodesUsedBits.of_all_used {w : Word} {i : Instr} (h : encode i = w)
    (used : usedBits i = 0xFFFF#16 := by rfl) : EncodesUsedBits w i := by
  rw [EncodesUsedBits, used, OpcodeRow.all_used, h]

theorem encode_of_decodeN0 {w : Word} {i : Instr} (h : decodeN0 w = .ok i) : EncodesUsedBits w i := by
  unfold decodeN0 at h
  split at h
  next cls => cases h; exact .of_all_used cls.symm
  next =>
    split at h
    next ret => cases h; exact .of_all_used ret.symm
    next => cases h

theorem encode_of_decodeN8 {w : Word} {i : Instr} (h1 : fieldN1 w = 0x8#4) (h : decodeN8 w = .ok i) :
    EncodesUsedBits w i := by
  unfold decodeN8 at h
  dsimp only at h
  split at h
  case h_7 code | h_9 code => -- SHR, SHL
    cases h; exact encodeXyn_clear_y h1 (Fin.ext code)
  case h_10 => cases h
  all_goals
    next code => cases h; exact .of_all_used (encodeXyn_fields h1 (Fin.ext code))

theorem encode_of_decodeNE {w : Word} {i : Instr} (h1 : fieldN1 w = 0xE#4) (h : decodeNE w = .ok i) :
    EncodesUsedBits w i := by
  unfold decodeNE at h
  split at h
  case h_3 => cases h
  all_goals
    next code => cases h; exact .of_all_used (encodeXkk_fields h1 (BitVec.eq_of_toNat_eq code))

theorem encode_of_decodeNF {w : Word} {i : Instr} (h1 : fieldN1 w = 0xF#4) (h : decodeNF w = .ok i) :
    EncodesUsedBits w i := by
  unfold decodeNF at h
  dsimp only at h
  split at h
  case h_10 => cases h
  all_goals
    next code => cases h; exact .of_all_used (encodeXkk_fields h1 (BitVec.eq_of_toNat_eq code))

/-- Everything `decode` can do (R56): four values of n1 need more of the word, and every other value picks
an instruction alone. -/
theorem decode_cases (w : Word) :
    ((fieldN1 w).toNat ∉ [0x0, 0x8, 0xE, 0xF] ∧ ∃ i, decode w = .ok i ∧ EncodesUsedBits w i) ∨
    (fieldN1 w = 0x0#4 ∧ decode w = decodeN0 w) ∨ (fieldN1 w = 0x8#4 ∧ decode w = decodeN8 w) ∨
    (fieldN1 w = 0xE#4 ∧ decode w = decodeNE w) ∨ (fieldN1 w = 0xF#4 ∧ decode w = decodeNF w) := by
  have read {k : BitVec 4} (h : (fieldN1 w).toNat = k.toNat) : fieldN1 w = k := BitVec.eq_of_toNat_eq h
  unfold decode
  split
  case h_1 n1 => exact .inr (.inl ⟨read n1, rfl⟩)
  case h_9 n1 => exact .inr (.inr (.inl ⟨read n1, rfl⟩))
  case h_15 n1 => exact .inr (.inr (.inr (.inl ⟨read n1, rfl⟩)))
  case h_16 =>
    have last : (fieldN1 w).toNat = 0xF := by
      have := (fieldN1 w).isLt
      grind
    exact .inr (.inr (.inr (.inr ⟨read last, rfl⟩)))
  case h_6 n1 | h_10 n1 => -- SE Vx, Vy and SNE Vx, Vy
    exact .inl ⟨by simp [n1], _, rfl, encodeXyn_clear_n (read n1)⟩
  case h_14 n1 => -- DRW
    exact .inl ⟨by simp [n1], _, rfl, .of_all_used (encodeXyn_fields (read n1) rfl)⟩
  case h_2 n1 | h_3 n1 | h_11 n1 | h_12 n1 => -- format NNN
    exact .inl ⟨by simp [n1], _, rfl, .of_all_used (encodeNnn_fields (read n1))⟩
  case h_4 n1 | h_5 n1 | h_7 n1 | h_8 n1 | h_13 n1 => -- format XKK
    exact .inl ⟨by simp [n1], _, rfl, .of_all_used (encodeXkk_fields (read n1) rfl)⟩

theorem encode_of_decode {w : Word} {i : Instr} (h : decode w = .ok i) : EncodesUsedBits w i := by
  obtain ⟨-, j, row, encoded⟩ | ⟨-, row⟩ | ⟨n1, row⟩ | ⟨n1, row⟩ | ⟨n1, row⟩ := decode_cases w <;>
    rw [row] at h
  · cases h
    exact encoded
  · exact encode_of_decodeN0 h
  · exact encode_of_decodeN8 n1 h
  · exact encode_of_decodeNE n1 h
  · exact encode_of_decodeNF n1 h

/-- The fixed bits of a row are those of its instruction's word (R55). -/
theorem encode_and_mask (i : Instr) : encode i &&& (opcodeRow i).2 = (opcodeRow i).1 := by
  cases i with
  | cls | ret => rfl
  | jp _ | call _ | ldI _ | jpV0 _ => exact OpcodeRow.nnn_row _ _
  | seImm _ _ | sneImm _ _ | ldImm _ _ | addImm _ _ | rnd _ _ => exact OpcodeRow.xkk_row _ _ _
  | seReg _ _ | sneReg _ _ | drw _ _ _ => exact OpcodeRow.xyn_row _ _ _ _
  | ldReg _ _ | orReg _ _ | andReg _ _ | xorReg _ _ | addReg _ _ | subReg _ _ | shr _ | subnReg _ _
  | shl _ => exact OpcodeRow.xyf_row _ _ _ _
  | skp _ | sknp _ | ldVxDt _ | ldVxK _ | ldDtVx _ | ldStVx _ | addI _ | ldF _ | ldB _ | ldMemVx _
  | ldVxMem _ => exact OpcodeRow.xfn_row _ _ _

/-- No fixed bit of a row is ignored. -/
theorem usedBits_and_mask (i : Instr) : usedBits i &&& (opcodeRow i).2 = (opcodeRow i).2 := by
  cases i <;> dsimp only [usedBits, opcodeRow] <;> rfl

/-- Settles O2: the encoder gives the word with its ignored bits cleared, and the fixed bits of the row are
those of the instruction's own word. -/
theorem encodeOfDecodeIsIdentityOnUsedBits : Obligations.EncodeOfDecodeIsIdentityOnUsedBits := by
  intro w i h
  have encoded : encode i = w &&& usedBits i := encode_of_decode h
  refine ⟨?_, encoded⟩
  rw [← encode_and_mask, encoded, BitVec.and_assoc, usedBits_and_mask]

/-! ## The word of a row (R60) -/

theorem fieldN1_of_and {w m v : Word} (h : w &&& m = v) (hm : fieldN1 m = .allOnes 4 := by rfl) :
    fieldN1 w = fieldN1 v := by
  rw [← h, fieldN1, fieldN1, BitVec.extractLsb'_and]
  change _ = _ &&& fieldN1 m
  rw [hm, BitVec.and_allOnes]

theorem fieldKk_of_and {w m v : Word} (h : w &&& m = v) (hm : fieldKk m = .allOnes 8 := by rfl) :
    fieldKk w = fieldKk v := by
  rw [← h, fieldKk, fieldKk, BitVec.extractLsb'_and]
  change _ = _ &&& fieldKk m
  rw [hm, BitVec.and_allOnes]

theorem fieldN_of_and {w m v : Word} (h : w &&& m = v)
    (hm : m.extractLsb' 0 4 = .allOnes 4 := by rfl) : fieldN w = fieldN v := by
  rw [← h, fieldN, fieldN, BitVec.extractLsb'_and, hm, BitVec.and_allOnes]

/-- The fixed bits of a row are all that `decode` examines to pick it. -/
theorem decode_of_row {w : Word} {i : Instr} (h : w &&& (opcodeRow i).2 = (opcodeRow i).1) :
    ∃ j, decode w = .ok j ∧ opcodeRow j = opcodeRow i := by
  cases i with
  | cls | ret =>
    obtain rfl := (OpcodeRow.all_used w).symm.trans h
    exact ⟨_, rfl, rfl⟩
  | jp _ | call _ | seImm _ _ | sneImm _ _ | seReg _ _ | ldImm _ _ | addImm _ _ | sneReg _ _ | ldI _
  | jpV0 _ | rnd _ _ | drw _ _ _ =>
    dsimp only [opcodeRow] at h
    exact ⟨_, by rw [decode, fieldN1_of_and h]; rfl, by rfl⟩
  | ldReg _ _ | orReg _ _ | andReg _ _ | xorReg _ _ | addReg _ _ | subReg _ _ | shr _ | subnReg _ _
  | shl _ =>
    dsimp only [opcodeRow] at h
    exact ⟨_, by rw [decode_eq_decodeN8 w (fieldN1_of_and h), decodeN8, fieldN_of_and h]; rfl, by rfl⟩
  | skp _ | sknp _ =>
    dsimp only [opcodeRow] at h
    exact ⟨_, by rw [decode_eq_decodeNE w (fieldN1_of_and h), decodeNE, fieldKk_of_and h]; rfl, by rfl⟩
  | ldVxDt _ | ldVxK _ | ldDtVx _ | ldStVx _ | addI _ | ldF _ | ldB _ | ldMemVx _ | ldVxMem _ =>
    dsimp only [opcodeRow] at h
    exact ⟨_, by rw [decode_eq_decodeNF w (fieldN1_of_and h), decodeNF, fieldKk_of_and h]; rfl, by rfl⟩

/-- Settles O3: every row that matches is the row of what the word decodes to, and `decode` is a function. -/
theorem matchingRowIsUnique : Obligations.MatchingRowIsUnique := by
  intro w i h
  obtain ⟨j, hj, row⟩ := decode_of_row h
  refine ⟨j, hj, row, fun k hk => ?_⟩
  obtain ⟨j', hj', row'⟩ := decode_of_row hk
  obtain rfl : j = j' := Except.ok.inj (hj.symm.trans hj')
  exact row'.symm.trans row

/-! ## Words of the spec -/

/-- Settles O6: each word is decoded by evaluation. -/
theorem wordsOfTheSpecDecode : Obligations.WordsOfTheSpecDecode :=
  ⟨rfl, rfl, rfl, rfl, rfl, rfl, rfl, rfl, rfl⟩

/-! ## The unimplemented words (R59) -/

theorem fieldN1_toNat (w : Word) : (fieldN1 w).toNat = w.toNat / 4096 := by
  have := w.isLt
  rw [fieldN1, BitVec.extractLsb'_toNat, Nat.shiftRight_eq_div_pow]
  omega

theorem fieldKk_toNat (w : Word) : (fieldKk w).toNat = w.toNat % 256 := by
  rw [fieldKk, BitVec.extractLsb'_toNat]
  rfl

theorem fieldN_val (w : Word) : (fieldN w).val = w.toNat % 16 := by
  rw [fieldN]
  exact BitVec.extractLsb'_toNat ..

theorem decodeN0_eq_error_iff (w : Word) :
    decodeN0 w = .error (.notImplemented w) ↔ w.toNat ≠ 0x00E0 ∧ w.toNat ≠ 0x00EE := by
  unfold decodeN0
  split
  next cls => simp [cls]
  next notCls =>
    split
    next ret => simp [ret]
    next notRet =>
      exact ⟨fun _ => ⟨fun e => notCls (BitVec.eq_of_toNat_eq e), fun e => notRet (BitVec.eq_of_toNat_eq e)⟩,
        fun _ => rfl⟩

theorem decodeN8_eq_error_iff (w : Word) :
    decodeN8 w = .error (.notImplemented w) ↔
      w.toNat % 16 ∈ [0x8, 0x9, 0xA, 0xB, 0xC, 0xD, 0xF] := by
  rw [← fieldN_val]
  unfold decodeN8
  dsimp only
  split
  case h_10 =>
    have := (fieldN w).isLt
    simp only [List.mem_cons, List.not_mem_nil]
    grind
  all_goals next code => simp [code]

theorem decodeNE_eq_error_iff (w : Word) :
    decodeNE w = .error (.notImplemented w) ↔ w.toNat % 256 ∉ [0x9E, 0xA1] := by
  rw [← fieldKk_toNat]
  unfold decodeNE
  split
  case h_3 => simp_all
  all_goals next code => simp [code]

theorem decodeNF_eq_error_iff (w : Word) :
    decodeNF w = .error (.notImplemented w) ↔
      w.toNat % 256 ∉ [0x07, 0x0A, 0x15, 0x18, 0x1E, 0x29, 0x33, 0x55, 0x65] := by
  rw [← fieldKk_toNat]
  unfold decodeNF
  dsimp only
  split
  case h_10 => simp_all
  all_goals next code => simp [code]

/-- Settles O4: the four rows that examine more than n1 have one part of the list each, and no other value
of n1 is listed. -/
theorem unimplementedWordsAreThoseListed : Obligations.UnimplementedWordsAreThoseListed := by
  intro w
  rw [← fieldN1_toNat, ← decodeN0_eq_error_iff, ← decodeN8_eq_error_iff, ← decodeNE_eq_error_iff,
    ← decodeNF_eq_error_iff]
  obtain ⟨n1, j, row, -⟩ | ⟨n1, row⟩ | ⟨n1, row⟩ | ⟨n1, row⟩ | ⟨n1, row⟩ := decode_cases w <;> rw [row]
  · simp_all
  all_goals simp [n1]

end Sys2Proof

/-! SUPPORT. What one instruction does to the whole state (R33, R65, R68..R71): it always answers a next
state, it writes only what its row of the access table gives, and it moves PC by its directive. -/

namespace Sys2Proof.Machine

open Sys2Proof

/-! ## Every instruction answers (R65) -/

theorem exec_answers_next (i : Instr) (s : State) : ∃ t, exec i s = .next t := by
  cases i with
  | ret =>
    simp only [exec, execRet]
    split <;> exact ⟨_, rfl⟩
  | call _ =>
    simp only [exec, execCall]
    split <;> exact ⟨_, rfl⟩
  | ldVxK _ =>
    simp only [exec, execLdVxK]
    split <;> exact ⟨_, rfl⟩
  | addI x =>
    obtain ⟨a, e⟩ := execAddI_eq x s
    exact ⟨_, e⟩
  | skp _ | sknp _ | drw _ _ _ | ldB _ | ldMemVx _ | ldVxMem _ =>
    simp only [exec, execSkp, execSknp, execDrw, execLdB, execLdMemVx, execLdVxMem]
    split <;> exact ⟨_, rfl⟩
  | _ => exact ⟨_, rfl⟩

theorem State.CompletedOrFaulted.mode {s t : State} {i : Instr} (h : s.CompletedOrFaulted i t) :
    t.mode = s.mode ∨ t.mode = .fault := by
  obtain completed | ⟨f, rfl⟩ := h
  · exact .inl (congrArg State.mode completed :)
  · exact .inr rfl

/-- Settles O14: the next state is completed, in the mode it had, or the entry of a fault. -/
theorem everyInstructionAnswersNext : Obligations.EveryInstructionAnswersNext := by
  intro i s
  obtain ⟨t, h⟩ := exec_answers_next i s
  exact ⟨t, h, (exec_completes_or_faults i s t h).mode⟩

/-! ## The access table (R33) -/

/-- The pieces besides V0..VF and PC that a completing instruction writes, by the access table. -/
def writtenParts : Instr → List Part
  | .ldI _ | .addI _ | .ldF _ => [.i]
  | .ldB _ | .ldMemVx _ => [.mem]
  | .cls | .drw _ _ _ => [.fb, .fbChanged]
  | .ldDtVx _ => [.dt]
  | .ldStVx _ => [.st]
  | .call _ => [.sp, .stack]
  | .ret => [.sp]
  | .jp _ | .jpV0 _ | .seImm _ _ | .sneImm _ _ | .seReg _ _ | .sneReg _ _ | .skp _ | .sknp _ => []
  | .ldImm _ _ | .addImm _ _ | .ldReg _ _ | .orReg _ _ | .andReg _ _ | .xorReg _ _ | .addReg _ _
  | .subReg _ _ | .shr _ | .subnReg _ _ | .shl _ | .rnd _ _ | .ldVxDt _ | .ldVxK _ | .ldVxMem _ => []

/-- A piece is the same in `t` as in `s`, memory as the very list. -/
def Part.identical (s t : State) : Part → Prop
  | .mem => t.mem = s.mem
  | p => p.same s t

/-- From `s` to `t` no piece changed but V0..VF, PC, the named pieces, and the mode and the fault status,
which the entry of a fault writes. -/
def State.WritesOnly (ps : List Part) (s t : State) : Prop :=
  ∀ p ∉ Part.mode :: Part.faultStatus :: ps, p.identical s t

section
variable (s : State) (ps : List Part)

theorem State.writesOnly_v_pc (v : Vector Byte 16) (pc : Word) :
    s.WritesOnly ps { s with v := v, pc := pc } := by
  intro p _
  cases p with
  | faultStatus => exact ⟨rfl, rfl, rfl, rfl⟩
  | _ => rfl

theorem State.writesOnly_enterFault (f : Fault) (op : Word) : s.WritesOnly ps (s.enterFault f op) := by
  intro p hp
  cases p with
  | mode | faultStatus => simp at hp
  | _ => rfl

/-- Registers and PC may be written besides. -/
theorem State.WritesOnly.and_v_pc {s u : State} {ps : List Part} (h : s.WritesOnly ps u)
    (v : Vector Byte 16) (pc : Word) : s.WritesOnly ps { u with v := v, pc := pc } := by
  intro p hp
  have kept := h p hp
  cases p <;> exact kept

theorem State.writesOnly_setI (a : Word) : s.WritesOnly [.i] (s.setI a) := by
  intro p hp
  cases p with
  | i | mode | faultStatus => exact absurd (by decide) hp
  | _ => rfl

theorem State.writesOnly_storeBytes (base : Nat) (bs : List Byte) :
    s.WritesOnly [.mem] (s.storeBytes base bs) := by
  intro p hp
  cases p with
  | mem | mode | faultStatus => exact absurd (by decide) hp
  | _ => rfl

theorem State.writesOnly_setFb (fb : FrameBuffer) : s.WritesOnly [.fb, .fbChanged] (s.setFb fb) := by
  intro p hp
  cases p with
  | fb | fbChanged | mode | faultStatus => exact absurd (by decide) hp
  | _ => rfl

theorem State.writesOnly_setDt (b : Byte) : s.WritesOnly [.dt] (s.setDt b) := by
  intro p hp
  cases p with
  | dt | mode | faultStatus => exact absurd (by decide) hp
  | _ => rfl

theorem State.writesOnly_setSt (b : Byte) : s.WritesOnly [.st] (s.setSt b) := by
  intro p hp
  cases p with
  | st | mode | faultStatus => exact absurd (by decide) hp
  | _ => rfl

end

theorem State.writesOnly_of_push? {s u : State} {a : Word} (h : s.push? a = some u) :
    s.WritesOnly [.sp, .stack] u := by
  unfold State.push? at h
  split at h <;> cases h
  intro p hp
  cases p with
  | sp | stack | mode | faultStatus => exact absurd (by decide) hp
  | _ => rfl

theorem State.writesOnly_of_pop? {s u : State} {a : Word} (h : s.pop? = some (u, a)) :
    s.WritesOnly [.sp] u := by
  unfold State.pop? at h
  split at h <;> cases h
  intro p hp
  cases p with
  | sp | mode | faultStatus => exact absurd (by decide) hp
  | _ => rfl

/-- Every instruction writes only what its row of the access table gives. -/
theorem exec_writesOnly (i : Instr) (s : State) : Ensures (exec i s) (s.WritesOnly (writtenParts i)) := by
  cases i with
  | cls => exact .done ((s.writesOnly_setFb _).and_v_pc _ _)
  | ret =>
    simp only [exec, execRet]
    split
    next h => exact .done ((State.writesOnly_of_pop? h).and_v_pc _ _)
    next => exact .raise (s.writesOnly_enterFault _ _ _)
  | call nnn =>
    simp only [exec, execCall]
    split
    next h => exact .done ((State.writesOnly_of_push? h).and_v_pc _ _)
    next => exact .raise (s.writesOnly_enterFault _ _ _)
  | jp _ | jpV0 _ | seImm _ _ | sneImm _ _ | seReg _ _ | sneReg _ _ | ldImm _ _ | addImm _ _
  | ldReg _ _ | orReg _ _ | andReg _ _ | xorReg _ _ | rnd _ _ | ldVxDt _ =>
    exact .done (s.writesOnly_v_pc _ _ _)
  | addReg x _ | subReg x _ | subnReg x _ =>
    refine .done ?_
    obtain ⟨v, e⟩ := s.writeResult_eq x _ _
    rw [e]
    exact s.writesOnly_v_pc _ _ _
  | shr x | shl x =>
    refine .done ?_
    obtain ⟨v, e⟩ := s.writeShift_eq x _ _
    rw [e]
    exact s.writesOnly_v_pc _ _ _
  | ldVxK x =>
    simp only [exec, execLdVxK]
    split <;> exact .done (s.writesOnly_v_pc _ _ _)
  | ldI _ | ldF _ => exact .done ((s.writesOnly_setI _).and_v_pc _ _)
  | addI x =>
    obtain ⟨a, e⟩ := execAddI_eq x s
    rw [exec, e]
    exact .done ((s.writesOnly_setI _).and_v_pc _ _)
  | ldDtVx _ => exact .done ((s.writesOnly_setDt _).and_v_pc _ _)
  | ldStVx _ => exact .done ((s.writesOnly_setSt _).and_v_pc _ _)
  | skp _ | sknp _ =>
    simp only [exec, execSkp, execSknp]
    split
    · exact .raise (s.writesOnly_enterFault _ _ _)
    · exact .done (s.writesOnly_v_pc _ _ _)
  | drw _ _ _ =>
    simp only [exec, execDrw]
    split
    · exact .done ((s.writesOnly_setFb _).and_v_pc _ _)
    · exact .raise (s.writesOnly_enterFault _ _ _)
  | ldB _ | ldMemVx _ =>
    simp only [exec, execLdB, execLdMemVx]
    split
    · exact .done ((s.writesOnly_storeBytes _ _).and_v_pc _ _)
    · exact .raise (s.writesOnly_enterFault _ _ _)
  | ldVxMem x =>
    simp only [exec, execLdVxMem]
    split
    · refine .done ?_
      obtain ⟨v, e⟩ := s.loadRegs_eq x s.base
      rw [e]
      exact s.writesOnly_v_pc _ _ _
    · exact .raise (s.writesOnly_enterFault _ _ _)

/-! ## The columns of the access table -/

theorem i_mem_writtenParts (i : Instr) : Part.i ∈ writtenParts i ↔
    (∃ nnn, i = .ldI nnn) ∨ (∃ x, i = .addI x) ∨ ∃ x, i = .ldF x := by
  cases i <;> simp [writtenParts]

theorem mem_mem_writtenParts (i : Instr) : Part.mem ∈ writtenParts i ↔
    (∃ x, i = .ldB x) ∨ ∃ x, i = .ldMemVx x := by
  cases i <;> simp [writtenParts]

theorem fb_mem_writtenParts (i : Instr) : Part.fb ∈ writtenParts i ↔
    i = .cls ∨ ∃ x y n, i = .drw x y n := by
  cases i <;> simp [writtenParts]

theorem fbChanged_mem_writtenParts (i : Instr) : Part.fbChanged ∈ writtenParts i ↔
    i = .cls ∨ ∃ x y n, i = .drw x y n := by
  cases i <;> simp [writtenParts]

theorem dt_mem_writtenParts (i : Instr) : Part.dt ∈ writtenParts i ↔ ∃ x, i = .ldDtVx x := by
  cases i <;> simp [writtenParts]

theorem st_mem_writtenParts (i : Instr) : Part.st ∈ writtenParts i ↔ ∃ x, i = .ldStVx x := by
  cases i <;> simp [writtenParts]

theorem stack_mem_writtenParts (i : Instr) : Part.stack ∈ writtenParts i ↔ ∃ nnn, i = .call nnn := by
  cases i <;> simp [writtenParts]

theorem sp_mem_writtenParts (i : Instr) : Part.sp ∈ writtenParts i ↔
    (∃ nnn, i = .call nnn) ∨ i = .ret := by
  cases i <;> simp [writtenParts]

/-- Settles O47: the registers are `exec_keeps_reg`, each column of the table is `exec_writesOnly` where the
instruction is none of the column's, and what is in no column is kept by completing and by faulting. -/
theorem instructionsWriteOnlyWhatTheAccessTableGives :
    Obligations.InstructionsWriteOnlyWhatTheAccessTableGives := by
  intro i s t h
  have kept := exec_writesOnly i s t h
  refine ⟨fun r hd hf hm => exec_keeps_reg i s r hd hf hm t h,
    fun _ _ _ => kept .i (by simp_all [i_mem_writtenParts]),
    fun _ _ => kept .mem (by simp_all [mem_mem_writtenParts]),
    fun _ _ => ⟨kept .fb (by simp_all [fb_mem_writtenParts]),
      kept .fbChanged (by simp_all [fbChanged_mem_writtenParts])⟩,
    fun _ => kept .dt (by simp_all [dt_mem_writtenParts]),
    fun _ => kept .st (by simp_all [st_mem_writtenParts]),
    fun _ => kept .stack (by simp_all [stack_mem_writtenParts]),
    fun _ _ => kept .sp (by simp_all [sp_mem_writtenParts]), ?_⟩
  obtain completed | ⟨f, rfl⟩ := exec_completes_or_faults i s t h
  · rw [completed]
    exact ⟨rfl, rfl, rfl, rfl, rfl, rfl, rfl, rfl⟩
  · exact ⟨rfl, rfl, rfl, rfl, rfl, rfl, rfl, rfl⟩

/-! ## Where PC goes (R68..R71) -/

/-- How an instruction that does not jump may leave PC: where it was by a fault, two further, four further
by a skip, or at a key wait that blocks. -/
inductive State.PcMoved (i : Instr) (s t : State) : Prop where
  | faulted (mode : t.mode = .fault) (pc : t.pc = s.pc)
  | next (pc : s.Advanced t)
  | skipped (skip : isSkip i = true) (pc : t.pc.toNat = (s.pc.toNat + 4) % 4096)
  | blocked (wait : ∃ x, i = .ldVxK x) (keys : s.keys = 0#16) (same : t = s)

theorem Ensures.pcMoved_raise {s : State} {f : Fault} {i j : Instr} :
    Ensures (s.raise f j) (s.PcMoved i) :=
  .raise (.faulted rfl rfl)

theorem Ensures.pcMoved_next {s u : State} {i : Instr} (h : u.pc = s.pc) :
    Ensures (u.done .next) (s.PcMoved i) := by
  have moved := u.advanced_resolve_next
  rw [State.Advanced, h] at moved
  exact .done (.next moved)

theorem Ensures.pcMoved_skipIf {s : State} {i : Instr} {c : Bool} (h : isSkip i = true) :
    Ensures (s.done (skipIf c)) (s.PcMoved i) := by
  have target := Directive.target_skipIf c s.pc
  cases c with
  | true => exact .done (.skipped h target)
  | false => exact .done (.next target)

theorem State.keys_eq_zero_of_lowestKey_none {s : State} (h : s.lowestKey = none) : s.keys = 0#16 :=
  BitVec.eq_of_getLsbD_eq fun k hk => by
    rw [BitVec.getLsbD_zero]
    exact s.lowestKey_none.mp h k hk

/-- An instruction that does not jump moves PC by its directive. -/
theorem exec_pcMoved (i : Instr) (s : State) (h : isJump i = false) :
    Ensures (exec i s) (s.PcMoved i) := by
  cases i with
  | jp _ | call _ | ret | jpV0 _ => cases h
  | cls | ldImm _ _ | addImm _ _ | ldReg _ _ | orReg _ _ | andReg _ _ | xorReg _ _ | rnd _ _ | ldVxDt _
  | ldI _ | ldF _ | ldDtVx _ | ldStVx _ => exact .pcMoved_next rfl
  | addReg _ _ | subReg _ _ | subnReg _ _ => exact .pcMoved_next (s.writeResult_pc ..)
  | shr _ | shl _ => exact .pcMoved_next (s.writeShift_eq_writeResult .. ▸ s.writeResult_pc ..)
  | seImm _ _ | sneImm _ _ | seReg _ _ | sneReg _ _ => exact .pcMoved_skipIf rfl
  | skp _ | sknp _ =>
    simp only [exec, execSkp, execSknp]
    split
    · exact .pcMoved_raise
    · exact .pcMoved_skipIf rfl
  | addI x =>
    obtain ⟨a, e⟩ := execAddI_eq x s
    rw [exec, e]
    exact .pcMoved_next rfl
  | ldVxK x =>
    simp only [exec, execLdVxK]
    split
    next none => exact .done (.blocked ⟨x, rfl⟩ (State.keys_eq_zero_of_lowestKey_none none) rfl)
    next => exact .pcMoved_next rfl
  | drw _ _ _ | ldB _ | ldMemVx _ =>
    simp only [exec, execDrw, execLdB, execLdMemVx]
    split
    · exact .pcMoved_next rfl
    · exact .pcMoved_raise
  | ldVxMem x =>
    simp only [exec, execLdVxMem]
    split
    · exact .pcMoved_next (s.loadRegs_pc x s.base)
    · exact .pcMoved_raise

/-- Settles O49: in mode RUN the instruction has not faulted, and the other three ways PC moves are those of
the statement. -/
theorem programCounterMovesAsDirected : Obligations.ProgramCounterMovesAsDirected := by
  intro i s t h _ run noJump
  cases exec_pcMoved i s noJump t h with
  | faulted fault _ => rw [run] at fault; cases fault
  | next pc => exact .inl pc
  | skipped skip pc => exact .inr (.inl ⟨skip, pc⟩)
  | blocked wait keys same => exact .inr (.inr ⟨wait, keys, same⟩)

end Sys2Proof.Machine

/-! SUPPORT. The invariant of the machine's states: each address register, the stack and memory through one
instruction, then the cycle, the program load and the host's turn. -/

namespace Sys2Proof.Machine

open Sys2Proof

/-! ## What instructions write stays in range (R19, R20, R22, R43) -/

/-- The part of the invariant that instructions write: 12-bit addresses and canonical memory. -/
structure State.AddressesOk (s : State) : Prop where
  pc12 : s.pc.toNat ≤ 0xFFF
  i12 : s.i.toNat ≤ 0xFFF
  stack12 : ∀ j : Fin 16, s.stack[j].toNat ≤ 0xFFF
  memWf : Memory.wf s.params.font s.mem = true

theorem mod_4096_le (n : Nat) : n % 4096 ≤ 0xFFF := by omega

theorem wrap12_le (n : Nat) : (wrap12 n).toNat ≤ 0xFFF := wrap12_toNat n ▸ mod_4096_le n

theorem addr12_le (nnn : Addr12) : nnn.toNat ≤ 0xFFF := Nat.le_of_lt_succ nnn.isLt

theorem absAddr_le (nnn : Addr12) : (absAddr nnn).toNat ≤ 0xFFF := absAddr_toNat nnn ▸ addr12_le nnn

theorem State.sp_lt_or_full (s : State) : s.sp.val < 16 ∨ s.sp = 16 := by omega

theorem State.sp_empty_or_succ (s : State) : s.sp = 0 ∨ ∃ j : Fin 16, s.sp.val = j.val + 1 := by
  obtain h | h := Nat.eq_zero_or_pos s.sp.val
  · exact .inl (Fin.ext h)
  · exact .inr ⟨⟨s.sp.val - 1, by omega⟩, by simp only; omega⟩

/-- A block store is made only inside memory. -/
theorem State.store_keeps_memWf (s : State) {n : Nat} {bs : List Byte} {f : Fault} {ins : Instr}
    (memWf : Memory.wf s.params.font s.mem = true) (length : bs.length = n + 1) :
    Ensures (if inBounds s.base (n + 1) then (s.storeBytes s.base bs).done .next else s.raise f ins)
      fun t => Memory.wf t.params.font t.mem = true := by
  split
  next inside =>
    have fits : s.base + bs.length ≤ memSize := by
      rw [length]
      exact ((inBounds_iff _ _).mp inside).resolve_left n.succ_ne_zero
    exact .done (Memory.wf_writeBytes _ _ _ _ fits memWf)
  next => exact .raise memWf

section
variable {s t : State} {i : Instr} (h : exec i s = .next t)
include h

theorem exec_keeps_i12 (i12 : s.i.toNat ≤ 0xFFF) : t.i.toNat ≤ 0xFFF := by
  by_cases writes : Part.i ∈ writtenParts i
  · obtain ⟨nnn, rfl⟩ | ⟨x, rfl⟩ | ⟨x, rfl⟩ := (i_mem_writtenParts i).mp writes
    · cases h
      exact absAddr_le nnn
    · rw [exec_addI_eq] at h
      cases h
      exact wrap12_le _
    · cases h
      exact wrap12_le _
  · have kept : t.i = s.i := exec_writesOnly i s t h .i (by simpa using writes)
    rwa [kept]

theorem exec_keeps_stack12 (stack12 : ∀ j : Fin 16, s.stack[j].toNat ≤ 0xFFF) (j : Fin 16) :
    t.stack[j].toNat ≤ 0xFFF := by
  by_cases writes : Part.stack ∈ writtenParts i
  · obtain ⟨nnn, rfl⟩ := (stack_mem_writtenParts i).mp writes
    obtain below | full := s.sp_lt_or_full
    · obtain ⟨t', h', -, -, entries, -⟩ := (callPushesReturnAddress nnn s).2.1 below
      cases h.symm.trans h'
      rw [entries]
      split
      · exact mod_4096_le _
      · exact stack12 j
    · rw [exec_call_of_full nnn full] at h
      cases h
      exact stack12 j
  · have kept : t.stack = s.stack := exec_writesOnly i s t h .stack (by simpa using writes)
    rw [kept]
    exact stack12 j

theorem exec_keeps_memWf (memWf : Memory.wf s.params.font s.mem = true) :
    Memory.wf t.params.font t.mem = true := by
  have font : t.params = s.params := (exec_completes_or_faults i s t h).sameClock.params
  by_cases writes : Part.mem ∈ writtenParts i
  · obtain ⟨x, rfl⟩ | ⟨x, rfl⟩ := (mem_mem_writtenParts i).mp writes
    · exact s.store_keeps_memWf memWf rfl t h
    · exact s.store_keeps_memWf memWf (s.regBlock_length x) t h
  · have kept : t.mem = s.mem := exec_writesOnly i s t h .mem (by simpa using writes)
    rwa [kept, font]

theorem exec_keeps_pc12 (ok : s.AddressesOk) : t.pc.toNat ≤ 0xFFF := by
  cases jump : isJump i with
  | false =>
    cases exec_pcMoved i s jump t h with
    | faulted _ pc => exact pc ▸ ok.pc12
    | next pc => exact pc ▸ mod_4096_le _
    | skipped _ pc => exact pc ▸ mod_4096_le _
    | blocked _ _ same => exact same ▸ ok.pc12
  | true =>
    cases i with
    | jp nnn =>
      cases h
      exact absAddr_le nnn
    | jpV0 nnn =>
      cases h
      exact wrap12_le _
    | call nnn =>
      obtain below | full := s.sp_lt_or_full
      · rw [exec_call_of_sp_lt nnn below] at h
        cases h
        exact absAddr_le nnn
      · rw [exec_call_of_full nnn full] at h
        cases h
        exact ok.pc12
    | ret =>
      obtain empty | ⟨j, succ⟩ := s.sp_empty_or_succ
      · rw [exec_ret_of_empty empty] at h
        cases h
        exact ok.pc12
      · rw [exec_ret_of_sp_succ succ] at h
        cases h
        exact ok.stack12 j
    | _ => cases jump

theorem exec_keeps_addresses (ok : s.AddressesOk) : t.AddressesOk where
  pc12 := exec_keeps_pc12 h ok
  i12 := exec_keeps_i12 h ok.i12
  stack12 := exec_keeps_stack12 h ok.stack12
  memWf := exec_keeps_memWf h ok.memWf

end

/-! ## One instruction keeps the invariant -/

theorem State.Inv.addresses {s : State} (h : s.Inv) : s.AddressesOk :=
  ⟨h.pc12, h.i12, h.stack12, h.memWf⟩

theorem Fault.code_ne_zero (f : Fault) : f.code ≠ 0#8 := by
  cases f <;> simp [Fault.code]

theorem Fault.code_range (f : Fault) : 1 ≤ f.code.toNat ∧ f.code.toNat ≤ 5 := by
  cases f <;> simp [Fault.code]

/-- A completing instruction keeps the mode, the statuses and the times. -/
theorem State.Inv.completed {s t : State} (h : s.Inv) (completed : t = s.withWritesOf t)
    (ok : t.AddressesOk) : t.Inv where
  pc12 := ok.pc12
  i12 := ok.i12
  stack12 := ok.stack12
  memWf := ok.memWf
  faultCode := by rw [completed]; exact h.faultCode
  codeRange := by rw [completed]; exact h.codeRange
  noFault := by rw [completed]; exact h.noFault
  diagRun := by rw [completed]; exact h.diagRun
  time := by rw [completed]; exact h.time

/-- Fault entry writes the fault status together with the mode (R124). -/
theorem State.Inv.enterFault {s : State} (h : s.Inv) (noDiag : s.diag = none) (f : Fault) (op : Word) :
    (s.enterFault f op).Inv where
  pc12 := h.pc12
  i12 := h.i12
  stack12 := h.stack12
  memWf := h.memWf
  faultCode := ⟨fun _ => f.code_ne_zero, fun _ => rfl⟩
  codeRange := f.code_range.2
  noFault notFault := absurd rfl notFault
  diagRun _ := noDiag
  time := h.time

theorem exec_keeps_inv (i : Instr) {s : State} (h : s.Inv) (noDiag : s.diag = none) :
    Ensures (exec i s) State.Inv := by
  intro t ht
  obtain completed | ⟨f, rfl⟩ := exec_completes_or_faults i s t ht
  · exact h.completed completed (exec_keeps_addresses ht h.addresses)
  · exact h.enterFault noDiag f _

/-! ## One cycle keeps the invariant (R64) -/

theorem State.Inv.clearDiag {s : State} (h : s.Inv) : s.clearDiag.Inv :=
  { h with diagRun := fun _ => rfl }

theorem State.Inv.unimplemented {s : State} (h : s.Inv) (run : s.mode = .run) (op : Word) :
    (s.unimplemented op).Inv :=
  { h with
    pc12 := wrap12_le _
    diagRun := fun notRun => absurd run notRun }

theorem State.Inv.tick {s : State} (h : s.Inv) : s.tick.Inv :=
  { h with
    time := by
      rw [State.tick_lastTick, State.tick_now]
      split
      · exact le_rfl
      · exact h.time }

theorem State.Inv.tickUnlessFaulted {s : State} (h : s.Inv) : s.tickUnlessFaulted.Inv := by
  unfold State.tickUnlessFaulted
  split
  · exact h.tick
  · exact h

theorem State.executeWord_keeps_inv {s : State} (h : s.Inv) (run : s.mode = .run)
    (noDiag : s.diag = none) (op : Word) : Ensures (s.executeWord op) State.Inv := by
  unfold State.executeWord
  split
  · exact exec_keeps_inv _ h noDiag
  · rintro t ⟨⟩
    exact h.unimplemented run op

theorem cycle_keeps_inv {s : State} (h : s.Inv) (run : s.mode = .run) :
    Ensures (cycle s) State.Inv := by
  intro t ht
  cases hfetch : s.fetch with
  | error f =>
    rw [cycle_of_fetch_error hfetch] at ht
    cases ht
    exact h.clearDiag.enterFault rfl f _
  | ok op =>
    rw [cycle_of_fetch_ok hfetch, mapNext_eq_next] at ht
    obtain ⟨u, hu, rfl⟩ := ht
    exact (State.executeWord_keeps_inv h.clearDiag run rfl op u hu).tickUnlessFaulted

/-! ## A step request in each mode (R76) -/

theorem stepRequest_of_run {s : State} (h : s.mode = .run) : stepRequest s = cycle s := by
  rw [stepRequest, h]

theorem stepRequest_of_not_run {s : State} (h : s.mode ≠ .run) : stepRequest s = .next s := by
  unfold stepRequest
  split
  next run => exact absurd run h
  all_goals rfl

theorem stepRequest_keeps_inv {s : State} (h : s.Inv) : Ensures (stepRequest s) State.Inv := by
  by_cases run : s.mode = .run
  · rw [stepRequest_of_run run]
    exact cycle_keeps_inv h run
  · rw [stepRequest_of_not_run run]
    rintro t ⟨⟩
    exact h

/-! ## The host's turn keeps the invariant (R137, R144) -/

/-- A load meets the invariant from every state, once the host's time is load_now. -/
theorem State.load_inv (s : State) (bytes : List Byte) (n : Nat) :
    { s.load bytes n with now := n }.Inv where
  pc12 := show (0x200#16).toNat ≤ 0xFFF by decide
  i12 := Nat.zero_le _
  stack12 j := by
    have zero : (s.load bytes n).stack[j] = 0#16 := s.stack_load bytes n j
    exact zero ▸ Nat.zero_le _
  memWf := Memory.wf_writeBytes _ _ _ _ (programBase_add_length_take_le bytes) (Memory.wf_nil _)
  faultCode := show Mode.run = .fault ↔ 0#8 ≠ 0#8 by decide
  codeRange := Nat.zero_le _
  noFault _ := ⟨rfl, rfl, rfl⟩
  diagRun _ := rfl
  time := le_rfl

theorem State.Inv.applyLoad {s : State} (h : s.Inv) (c : Option Config.LoadCommand) :
    (s.applyLoad c).Inv := by
  cases c with
  | none => exact h
  | some c => exact s.load_inv c.bytes (s.now + c.wait)

theorem State.Inv.hostTurn {s : State} (h : s.Inv) : s.hostTurn.Inv :=
  { h.applyLoad s.nextMove.load with
    time := (h.applyLoad s.nextMove.load).time.trans (Nat.le_add_right _ _) }

/-- Settles O51: the step request keeps the invariant, and so does the host's turn after it. -/
theorem stepKeepsInvariant : Obligations.StepKeepsInvariant := by
  intro s t h hstep
  obtain ⟨u, hu, rfl⟩ := (mapNext_eq_next _ _ _).mp hstep
  exact (stepRequest_keeps_inv h u hu).hostTurn

/-- Settles O57: at power-on the load of no program leaves the reset state, and IDLE executes nothing. -/
theorem resetIsLoadOfNoProgram : Obligations.ResetIsLoadOfNoProgram :=
  ⟨rfl, rfl, rfl, rfl, stepRequest_of_not_run (by decide)⟩

/-- Settles O50: the reset state is a load at time 0, and the power-on state is it but for the mode IDLE,
which is no FAULT. -/
theorem resetAndPowerOnMeetInvariant : Obligations.ResetAndPowerOnMeetInvariant := by
  have reset : State.reset.Inv := State.powerOn.load_inv [] 0
  exact ⟨reset, { reset with
    faultCode := by decide
    noFault := fun _ => ⟨rfl, rfl, rfl⟩
    diagRun := fun _ => rfl }⟩

end Sys2Proof.Machine

/-! SUPPORT. The cycle around one instruction (40_cycle.md, 60_exceptions.md): a step that runs the decoded
instruction, the entry of a fault by the fetch and by an instruction, and the cycle at JP PC. -/

namespace Sys2Proof.Machine

open Sys2Proof

/-! ## A fetched word runs (R41, R64) -/

/-- A fetch that passes the alignment and the bound reads the big-endian word at PC. -/
theorem State.fetch_eq_word {s : State} (aligned : s.pc.getLsbD 0 = false ∨ s.params.allowOddPc = true)
    (low : s.pc.toNat < 0xFFF) :
    s.fetch = .ok (wordOfBytes (s.readByte s.pc.toNat) (s.readByte (s.pc.toNat + 1))) := by
  obtain ⟨odd, strict, -⟩ | ⟨-, high, -⟩ | ⟨-, -, h⟩ := s.fetch_cases
  · simp only [odd, strict, reduceCtorEq, or_self] at aligned
  · omega
  · exact h

theorem State.executeWord_of_ok {op : Word} {i : Instr} (s : State) (h : decode op = .ok i) :
    s.executeWord op = exec i s := by
  rw [State.executeWord, h]

/-- Two bytes that decode to an instruction are those of a word that does. -/
theorem decode_of_decodeBytes_pair {hi lo : Byte} {i : Instr} (h : decodeBytes [hi, lo] = .ok (i, [])) :
    decode (wordOfBytes hi lo) = .ok i := by
  rw [decodeBytes_cons_cons] at h
  cases hword : decode (wordOfBytes hi lo) with
  | error e => rw [hword] at h; cases h
  | ok j => rw [hword] at h; cases h; rfl

/-- Settles O7: the fetch reads the word of the two bytes, and the cycle executes what it decodes to. -/
theorem stepRunsDecodedInstruction : Obligations.StepRunsDecodedInstruction := by
  intro s i run aligned low hbytes
  rw [step, stepRequest_of_run run, cycle_of_fetch_ok (State.fetch_eq_word aligned low),
    State.executeWord_of_ok _ (decode_of_decodeBytes_pair hbytes)]

/-! ## Faults (R117, R124, R125) -/

/-- Settles O9: the fetch raises PcMisaligned or MemBounds by `fetchReadsBigEndianOrFaults`, and the cycle is
the entry of that fault. -/
theorem fetchFaultsEnterFaultMode : Obligations.FetchFaultsEnterFaultMode := by
  intro s _
  obtain ⟨misaligned, beyond, -⟩ := fetchReadsBigEndianOrFaults s
  exact ⟨fun odd strict => ⟨_, cycle_of_fetch_error (misaligned odd strict), rfl⟩,
    fun aligned high => ⟨_, cycle_of_fetch_error (beyond aligned high), rfl⟩⟩

/-- An instruction that ignores bits of its word does not fault: the skips on two registers and the shifts
always complete. -/
theorem usedBits_of_faulting {i : Instr} {s t : State} (h : exec i s = .next t) (run : s.mode = .run)
    (fault : t.mode = .fault) : usedBits i = 0xFFFF#16 := by
  have kept (same : t.mode = s.mode) : usedBits i = 0xFFFF#16 := by
    rw [same, run] at fault
    cases fault
  cases i with
  | seReg _ _ | sneReg _ _ => cases h; exact kept rfl
  | shr _ | shl _ =>
    cases h
    exact kept (congrArg State.mode (s.writeShift_eq_withWritesOf ..) :)
  | _ => rfl

/-- An instruction that faults enters FAULT and records the word it was decoded from. -/
theorem exec_enters_fault {op : Word} {i : Instr} {s t : State} (hop : decode op = .ok i)
    (h : exec i s = .next t) (run : s.mode = .run) (fault : t.mode = .fault) :
    ∃ f, t = s.enterFault f op := by
  have recorded : encode i = op := by
    have encoded : encode i = op &&& usedBits i := encode_of_decode hop
    rw [encoded, usedBits_of_faulting h run fault, Laws.OpcodeRow.all_used]
  obtain completed | ⟨f, entered⟩ := exec_completes_or_faults i s t h
  · have mode : t.mode = s.mode := (congrArg State.mode completed :)
    rw [mode, run] at fault
    cases fault
  · exact ⟨f, recorded ▸ entered⟩

/-- A word that faults is an instruction, since an unknown word keeps the mode. -/
theorem State.executeWord_enters_fault {op : Word} {s t : State} (h : s.executeWord op = .next t)
    (run : s.mode = .run) (fault : t.mode = .fault) : ∃ f, t = s.enterFault f op := by
  cases hop : decode op with
  | ok i =>
    rw [State.executeWord_of_ok s hop] at h
    exact exec_enters_fault hop h run fault
  | error e =>
    rw [State.executeWord_of_error s hop] at h
    cases h
    cases run.symm.trans fault

/-- Settles O13: the fault is the fetch's, recorded with opcode 0, or the fetched word's, recorded with that
word; after either there is no tick. -/
theorem faultingCycleOnlyRecordsTheFault : Obligations.FaultingCycleOnlyRecordsTheFault := by
  intro s t run hcycle fault
  cases hfetch : s.fetch with
  | error f =>
    rw [cycle_of_fetch_error hfetch] at hcycle
    cases hcycle
    exact ⟨_, _, _, s.clearDiag.enteredFault_enterFault f _, f.code_range.1, f.code_range.2,
      .inr ⟨⟨f, rfl⟩, rfl⟩⟩
  | ok op =>
    rw [cycle_of_fetch_ok hfetch, mapNext_eq_next] at hcycle
    obtain ⟨u, hu, rfl⟩ := hcycle
    rw [State.tickUnlessFaulted_mode] at fault
    obtain ⟨f, rfl⟩ := State.executeWord_enters_fault hu run fault
    exact ⟨_, _, _, s.clearDiag.enteredFault_enterFault f op, f.code_range.1, f.code_range.2, .inl rfl⟩

/-! ## SPIN (R152) -/

theorem UnchangedBut.mono {rs rs' : List (Fin 16)} {ps ps' : List Part} {s t : State}
    (h : UnchangedBut rs ps s t) (hrs : rs ⊆ rs') (hps : ps ⊆ ps') : UnchangedBut rs' ps' s t where
  regs r hr := h.regs r (mt (@hrs r) hr)
  parts p hp := h.parts p (mt (@hps p) hp)

theorem State.clearDiag_frame (s : State) : UnchangedBut [] [.diag] s s.clearDiag where
  regs _ _ := rfl
  parts p hp := by
    cases p with
    | diag => exact absurd (by decide) hp
    | mem => exact fun _ => rfl
    | faultStatus => exact ⟨rfl, rfl, rfl, rfl⟩
    | _ => rfl

/-- A 12-bit address survives its narrowing to the operand of JP. -/
theorem absAddr_ofNat {a : Word} (h : a.toNat ≤ 0xFFF) : absAddr (BitVec.ofNat 12 a.toNat) = a := by
  apply BitVec.eq_of_toNat_eq
  rw [absAddr_toNat, BitVec.toNat_ofNat, Nat.mod_eq_of_lt (Nat.lt_succ_of_le h)]

/-- JP PC resolves to the state it started from, so its cycle is the tick alone. -/
theorem cycle_of_spin {s : State} (h : s.Spin) : cycle s = .next s.clearDiag.tick := by
  obtain ⟨run, low, fetched⟩ := h
  have jump : exec (.jp (BitVec.ofNat 12 s.pc.toNat)) s.clearDiag = .next s.clearDiag := by
    change s.clearDiag.done (.jump (absAddr _)) = _
    rw [absAddr_ofNat low]
    rfl
  rw [cycle_of_fetch_ok fetched, State.executeWord_of_ok _ (decode_encode _), jump, mapNext,
    State.tickUnlessFaulted_of_run (show s.clearDiag.mode = .run from run)]

/-- Settles O53: the tick looks at and changes nothing that makes a spin state. -/
theorem spinChangesOnlyTimers : Obligations.SpinChangesOnlyTimers := by
  intro s h
  have frame := s.clearDiag_frame.trans s.clearDiag.tick_frame
  exact ⟨_, cycle_of_spin h, h, rfl, rfl, frame.mono (List.Subset.refl _) (by decide)⟩

end Sys2Proof.Machine

/-! SUPPORT. The host's turn (10_state.md, 70_reset_and_hazards.md): what it writes with and without a load,
and what the step request before it leaves for it. -/

namespace Sys2Proof.Machine

open Sys2Proof

/-! ## The turn with and without a load -/

/-- Everything after the load writes fb_changed, the ports and the model's own fields only. -/
theorem State.hostMove_frame (u : State) (now : Nat) (m : Config.HostMove) :
    UnchangedBut [] [.fbChanged, .keys, .now, .rand, .script, .turn] u
      (({ u with now := now }.applyAck m.fbAck).drive m).popMove where
  regs _ _ := rfl
  parts p hp := by
    cases p with
    | fbChanged | keys | now | rand | script | turn => exact absurd (by decide) hp
    | mem => exact fun _ => rfl
    | faultStatus => exact ⟨rfl, rfl, rfl, rfl⟩
    | _ => rfl

theorem State.hostTurn_of_no_load {s : State} (h : s.nextMove.load = none) :
    s.hostTurn = ((s.applyAck s.nextMove.fbAck).drive s.nextMove).popMove := by
  rw [State.hostTurn, h, State.applyLoad]

theorem State.hostTurn_of_load {s : State} {c : Config.LoadCommand} (h : s.nextMove.load = some c) :
    s.hostTurn = (({ s.load c.bytes (s.now + c.wait) with now := s.now + c.wait }.applyAck
      s.nextMove.fbAck).drive s.nextMove).popMove := by
  rw [State.hostTurn, h, State.applyLoad]

/-- Settles O12: in IDLE and FAULT a step is the host's turn alone. -/
theorem stoppedModesExecuteNothing : Obligations.StoppedModesExecuteNothing := by
  intro s stopped
  have nothing := stepRequest_of_not_run stopped
  refine ⟨nothing, fun noLoad => ⟨s.hostTurn, by rw [step, nothing, mapNext], ?_⟩⟩
  rw [State.hostTurn_of_no_load noLoad]
  exact ⟨rfl, s.hostMove_frame s.now s.nextMove⟩

/-- Settles O52: from FAULT a step is the host's turn alone, which writes the mode only by a load. -/
theorem faultIsLeftOnlyByLoad : Obligations.FaultIsLeftOnlyByLoad := by
  intro s t fault hstep left
  have stopped : s.mode ≠ .run := by rw [fault]; decide
  rw [step, stepRequest_of_not_run stopped] at hstep
  cases hstep
  cases hload : s.nextMove.load with
  | none =>
    rw [State.hostTurn_of_no_load hload] at left
    exact absurd fault left
  | some c =>
    rw [State.hostTurn_of_load hload]
    exact ⟨Option.some_ne_none c, rfl, rfl, rfl, rfl, rfl⟩

/-! ## What a step request leaves for the host's turn -/

/-- The parameters, the host's time and its coming moves are kept, and fb_changed is not cleared. -/
structure State.HostSideKept (s t : State) : Prop where
  params : t.params = s.params
  now : t.now = s.now
  nextMove : t.nextMove = s.nextMove
  fbChanged : s.fbChanged = true → t.fbChanged = true

/-- Only CLS and DRW write fb_changed, and they set it (R27). -/
theorem exec_keeps_fbChanged {i : Instr} {s t : State} (h : exec i s = .next t)
    (changed : s.fbChanged = true) : t.fbChanged = true := by
  by_cases writes : Part.fbChanged ∈ writtenParts i
  · obtain rfl | ⟨x, y, n, rfl⟩ := (fbChanged_mem_writtenParts i).mp writes
    · cases h
      rfl
    · by_cases inside : n.val = 0 ∨ s.i.toNat + n.val ≤ memSize
      · rw [exec_drw_of_inBounds inside] at h
        cases h
        rfl
      · rw [exec_drw_of_outOfBounds inside] at h
        cases h
        exact changed
  · have kept : t.fbChanged = s.fbChanged := exec_writesOnly i s t h .fbChanged (by simpa using writes)
    rw [kept, changed]

theorem exec_keeps_hostSide (i : Instr) (s : State) : Ensures (exec i s) s.HostSideKept := by
  intro t h
  have fbChanged := exec_keeps_fbChanged h
  obtain completed | ⟨f, rfl⟩ := exec_completes_or_faults i s t h
  · rw [completed] at fbChanged ⊢
    exact ⟨rfl, rfl, rfl, fbChanged⟩
  · exact ⟨rfl, rfl, rfl, fbChanged⟩

theorem State.executeWord_keeps_hostSide (s : State) (op : Word) :
    Ensures (s.executeWord op) s.HostSideKept := by
  unfold State.executeWord
  split
  · exact exec_keeps_hostSide _ s
  · rintro t ⟨⟩
    exact ⟨rfl, rfl, rfl, id⟩

theorem State.HostSideKept.tickUnlessFaulted {s t : State} (h : s.HostSideKept t) :
    s.HostSideKept t.tickUnlessFaulted := by
  unfold State.tickUnlessFaulted
  split
  · exact ⟨h.params, h.now, h.nextMove, h.fbChanged⟩
  · exact h

theorem cycle_keeps_hostSide (s : State) : Ensures (cycle s) s.HostSideKept := by
  intro t ht
  cases hfetch : s.fetch with
  | error f =>
    rw [cycle_of_fetch_error hfetch] at ht
    cases ht
    exact ⟨rfl, rfl, rfl, id⟩
  | ok op =>
    rw [cycle_of_fetch_ok hfetch, mapNext_eq_next] at ht
    obtain ⟨u, hu, rfl⟩ := ht
    have ⟨params, now, nextMove, fbChanged⟩ := s.clearDiag.executeWord_keeps_hostSide op u hu
    exact State.HostSideKept.tickUnlessFaulted ⟨params, now, nextMove, fbChanged⟩

theorem stepRequest_keeps_hostSide (s : State) : Ensures (stepRequest s) s.HostSideKept := by
  by_cases run : s.mode = .run
  · rw [stepRequest_of_run run]
    exact cycle_keeps_hostSide s
  · rw [stepRequest_of_not_run run]
    rintro t ⟨⟩
    exact ⟨rfl, rfl, rfl, id⟩

theorem State.hostTurn_params (s : State) : s.hostTurn.params = s.params := by
  cases h : s.nextMove.load with
  | none => rw [State.hostTurn_of_no_load h]; rfl
  | some c => rw [State.hostTurn_of_load h]; rfl

theorem State.now_le_hostTurn (s : State) : s.now ≤ s.hostTurn.now := by
  cases h : s.nextMove.load with
  | none =>
    rw [State.hostTurn_of_no_load h]
    exact Nat.le_add_right _ _
  | some c =>
    rw [State.hostTurn_of_load h]
    exact (Nat.le_add_right _ _).trans (Nat.le_add_right _ _)

/-- A load sets fb_changed and a move without one leaves it, so only fb_ack clears it. -/
theorem State.hostTurn_fbChanged {s : State} (changed : s.fbChanged = true) :
    s.hostTurn.fbChanged = !s.nextMove.fbAck := by
  cases h : s.nextMove.load with
  | none =>
    rw [State.hostTurn_of_no_load h]
    simp [changed]
  | some c =>
    rw [State.hostTurn_of_load h]
    exact Bool.true_and _

/-- Settles O54: the step request keeps the parameters and the time, and the host's turn keeps the parameters
and only adds to the time. -/
theorem stepKeepsParametersAndTimeGrows : Obligations.StepKeepsParametersAndTimeGrows := by
  intro s t hstep
  obtain ⟨u, hu, rfl⟩ := (mapNext_eq_next _ _ _).mp hstep
  have kept := stepRequest_keeps_hostSide s u hu
  exact ⟨u.hostTurn_params.trans kept.params, kept.now ▸ u.now_le_hostTurn⟩

/-- Settles O55: the turn's writes are read off its two forms, and fb_changed, which the step request does
not clear, is cleared only by fb_ack. -/
theorem hostTurnLoadsAcknowledgesAndDrives : Obligations.HostTurnLoadsAcknowledgesAndDrives := by
  intro s
  refine ⟨rfl, rfl, fun noLoad => ?_, fun c hload => ?_, fun t hstep changed cleared => ?_⟩
  · rw [State.hostTurn_of_no_load noLoad]
    exact ⟨rfl, rfl, rfl, s.hostMove_frame s.now s.nextMove⟩
  · rw [State.hostTurn_of_load hload]
    exact ⟨rfl, rfl, rfl, State.hostMove_frame _ (s.now + c.wait) s.nextMove⟩
  · obtain ⟨u, hu, rfl⟩ := (mapNext_eq_next _ _ _).mp hstep
    have kept := stepRequest_keeps_hostSide s u hu
    rw [State.hostTurn_fbChanged (kept.fbChanged changed), kept.nextMove] at cleared
    simpa using cleared

end Sys2Proof.Machine

/-! SUPPORT. Two writes and what reads them: memory lists that read alike, words stored and then fetched, the
second draw of a sprite, and the return from a call. -/

namespace Sys2Proof.Machine

open Sys2Proof

/-! ## Canonical memories (R37) -/

@[simp] theorem Memory.read_cons_same (font : Config.Font) (a : Nat) (b : Byte) (rest : Memory) :
    Memory.read font ((a, b) :: rest) a = b := if_pos rfl

theorem Memory.read_cons_ne (font : Config.Font) {a k : Nat} (b : Byte) (rest : Memory) (h : a ≠ k) :
    Memory.read font ((k, b) :: rest) a = Memory.read font rest a := if_neg h

theorem Memory.sortedFrom_cons {lo k : Nat} {b : Byte} {rest : Memory} :
    Memory.sortedFrom lo ((k, b) :: rest) = true ↔ lo ≤ k ∧ Memory.sortedFrom (k + 1) rest = true := by
  simp only [Memory.sortedFrom, Bool.and_eq_true, decide_eq_true_eq]

/-- A canonical list from `lo` on: sorted, and of admitted cells. -/
structure Memory.CanonicalFrom (font : Config.Font) (lo : Nat) (m : Memory) : Prop where
  sorted : Memory.sortedFrom lo m = true
  cells : ∀ c ∈ m, Memory.cellOk font c

theorem Memory.canonicalFrom_of_wf {font : Config.Font} {m : Memory} (h : Memory.wf font m = true) :
    Memory.CanonicalFrom font 0 m :=
  ⟨Memory.wf_sorted h, (Memory.entriesOk_iff font m).mp (Memory.wf_entries h)⟩

theorem Memory.CanonicalFrom.nil (font : Config.Font) (lo : Nat) : Memory.CanonicalFrom font lo [] :=
  ⟨rfl, fun _ h => absurd h List.not_mem_nil⟩

section
variable {font : Config.Font} {lo k : Nat} {b : Byte} {m rest : Memory}

theorem Memory.CanonicalFrom.from_head (h : Memory.CanonicalFrom font lo ((k, b) :: rest)) :
    Memory.CanonicalFrom font k ((k, b) :: rest) where
  sorted := Memory.sortedFrom_cons.mpr ⟨le_rfl, (Memory.sortedFrom_cons.mp h.sorted).2⟩
  cells := h.cells

theorem Memory.CanonicalFrom.tail (h : Memory.CanonicalFrom font lo ((k, b) :: rest)) :
    Memory.CanonicalFrom font (k + 1) rest where
  sorted := (Memory.sortedFrom_cons.mp h.sorted).2
  cells c hc := h.cells c (List.mem_cons_of_mem _ hc)

/-- The first cell reads as something else than a list that starts above it. -/
theorem Memory.CanonicalFrom.read_head_ne (h : Memory.CanonicalFrom font lo ((k, b) :: rest))
    {lo' : Nat} (hm : Memory.CanonicalFrom font lo' m) (above : k < lo') :
    Memory.read font ((k, b) :: rest) k ≠ Memory.read font m k := by
  rw [Memory.read_cons_same, Memory.read_of_lt font m lo' k hm.sorted above]
  exact (h.cells _ List.mem_cons_self).2

end

/-- The two lists have the same first cell, since a cell listed in one alone would read apart. -/
theorem Memory.CanonicalFrom.eq_of_read_eq {font : Config.Font} {lo : Nat} {m m' : Memory}
    (h : Memory.CanonicalFrom font lo m) (h' : Memory.CanonicalFrom font lo m')
    (alike : ∀ a, Memory.read font m a = Memory.read font m' a) : m = m' := by
  induction m generalizing lo m' with
  | nil =>
    cases m' with
    | nil => rfl
    | cons e' rest' =>
      exact absurd (alike e'.1).symm (h'.read_head_ne (.nil font (e'.1 + 1)) (Nat.lt_succ_self _))
  | cons e rest ih =>
    obtain ⟨k, b⟩ := e
    cases m' with
    | nil => exact absurd (alike k) (h.read_head_ne (.nil font (k + 1)) (Nat.lt_succ_self _))
    | cons e' rest' =>
      obtain ⟨k', b'⟩ := e'
      obtain below | rfl | above := Nat.lt_trichotomy k k'
      · exact absurd (alike k) (h.read_head_ne h'.from_head below)
      · have same_byte : b = b' := by simpa using alike k
        have alike_rest : ∀ a, Memory.read font rest a = Memory.read font rest' a := fun a => by
          by_cases ha : a = k
          · rw [ha, Memory.read_of_lt font rest _ k h.tail.sorted k.lt_succ_self,
              Memory.read_of_lt font rest' _ k h'.tail.sorted k.lt_succ_self]
          · simpa only [Memory.read_cons_ne font _ _ ha] using alike a
        rw [same_byte, ih h.tail h'.tail alike_rest]
      · exact absurd (alike k').symm (h'.read_head_ne h.from_head above)

/-- Settles O58: two canonical lists are canonical from 0. -/
theorem canonicalMemoriesThatReadAlikeAreEqual : Obligations.CanonicalMemoriesThatReadAlikeAreEqual :=
  fun _ _ _ wf wf' alike =>
    (Memory.canonicalFrom_of_wf wf).eq_of_read_eq (Memory.canonicalFrom_of_wf wf') alike

/-! ## Fetching stored bytes (R40, R48) -/

theorem getLsbD_zero_of_even {a : Word} (h : a.toNat % 2 = 0) : a.getLsbD 0 = false := by
  rw [← Bool.not_eq_true, getLsbD_zero_iff_odd]
  omega

/-- Settles O15: the block store leaves V[r] and V[q] at the two bytes that the fetch at `p` reads. -/
theorem fetchSeesStoredRegisters : Obligations.FetchSeesStoredRegisters := by
  intro s x p wf fits even r q hq hqx hp
  obtain ⟨t, h, stored, -⟩ := (dumpStoresRegisters x s wf).2.1 fits
  refine ⟨t, h, ?_⟩
  have high : t.readByte p.toNat = s.getV r := hp ▸ stored r (by omega)
  have low : t.readByte (p.toNat + 1) = s.getV q := by
    have address : p.toNat + 1 = s.i.toNat + q.val := by omega
    exact address ▸ stored q hqx
  have below : p.toNat < 0xFFF := by omega
  have fetched := (t.setPc p).fetch_eq_word (.inl (getLsbD_zero_of_even even)) below
  change _ = Except.ok (wordOfBytes (t.readByte p.toNat) (t.readByte (p.toNat + 1))) at fetched
  rw [fetched, high, low, wordOfBytes]

theorem State.canFetch_iff (s : State) : s.canFetch = true ↔
    (s.pc.getLsbD 0 = false ∨ s.params.allowOddPc = true) ∧ s.pc.toNat < 0xFFF := by
  rw [State.canFetch, Bool.and_eq_true, Bool.not_eq_true', Bool.and_eq_false_iff, Bool.not_eq_false',
    decide_eq_true_iff]
  exact Iff.rfl

/-- The two bytes of a word stored at PC are fetched, wherever a fetch reads. -/
theorem State.fetch_storeBytes_word {s : State} {w : Word} (wf : Memory.wf s.params.font s.mem = true)
    (can : s.canFetch = true) :
    (s.storeBytes s.pc.toNat [highByte w, lowByte w]).fetch = .ok w := by
  obtain ⟨aligned, low⟩ := s.canFetch_iff.mp can
  have fits : s.pc.toNat + [highByte w, lowByte w].length ≤ memSize := by
    simp only [List.length_cons, List.length_nil, memSize]; omega
  have high_byte := s.readByte_storeBytes_inside (r := 0) fits wf rfl
  have low_byte := s.readByte_storeBytes_inside (r := 1) fits wf rfl
  rw [Nat.add_zero] at high_byte
  rw [State.fetch_eq_word (s := s.storeBytes _ _) aligned low, State.storeBytes_pc, high_byte, low_byte,
    wordOfBytes_highByte_lowByte]

/-- The state in which `withFetchWord` places a word: `s` in mode RUN, at 0x200 if no fetch reads at PC. -/
def State.fetchable (s : State) : State :=
  { (if s.canFetch then s else s.setPc 0x200#16) with mode := .run }

theorem State.withFetchWord_eq (s : State) (w : Word) : s.withFetchWord 16 w.toNat =
    s.fetchable.storeBytes s.fetchable.pc.toNat [highByte w, lowByte w] := by
  have word : BitVec.ofNat 16 (w.toNat % 2 ^ min 16 16) = w := by
    rw [Nat.min_self, Nat.mod_eq_of_lt w.isLt, BitVec.ofNat_toNat, BitVec.setWidth_eq]
  rw [State.withFetchWord, word]
  rfl

theorem State.canFetch_fetchable (s : State) : s.fetchable.canFetch = true := by
  unfold State.fetchable
  split
  next can => exact can
  next =>
    have aligned : (0x200#16).getLsbD 0 = false := by decide
    have low : (0x200#16).toNat < 0xFFF := by decide
    exact (State.canFetch_iff _).mpr ⟨.inl aligned, low⟩

theorem State.fetchable_memory (s : State) :
    s.fetchable.mem = s.mem ∧ s.fetchable.params = s.params := by
  unfold State.fetchable
  split <;> exact ⟨rfl, rfl⟩

/-- Settles O59: the word is stored at the PC of `State.fetchable`, where a fetch reads. -/
theorem placedWordIsFetched : Obligations.PlacedWordIsFetched := by
  intro s w wf
  obtain ⟨mem, params⟩ := s.fetchable_memory
  rw [← mem, ← params] at wf
  rw [s.withFetchWord_eq]
  exact State.fetch_storeBytes_word wf s.canFetch_fetchable

/-! ## The second draw of a sprite (R81) -/

/-- What a sprite covers depends on the bytes of memory alone. -/
theorem State.spriteCovers_congr {s t : State} (h : Part.mem.same s t) (base n x y : Nat) (cy : Fin 32)
    (cx : Fin 64) : t.spriteCovers base n x y cy cx = s.spriteCovers base n x y cy cx := by
  simp only [State.spriteCovers, h _]

/-- The sprite that the first draw covers is the one the second covers: I, memory and the two coordinates
are kept, since only V[F] is written. -/
theorem drawnSprite_kept {s t : State} {x y : Fin 16} (n : Nat) (hx : x ≠ 15) (hy : y ≠ 15)
    (frame : UnchangedBut [15] [.fb, .fbChanged] s t) :
    t.spriteCovers t.i.toNat n (t.getV x).toNat (t.getV y).toNat =
      s.spriteCovers s.i.toNat n (s.getV x).toNat (s.getV y).toNat := by
  have index : t.i = s.i := frame.parts .i (by decide)
  have column : t.getV x = s.getV x := frame.regs x (by simpa using hx)
  have row : t.getV y = s.getV y := frame.regs y (by simpa using hy)
  funext cy cx
  rw [index, column, row, State.spriteCovers_congr (frame.parts .mem (by decide))]

/-- A covered cell is lit after a draw exactly when it was dark before. -/
theorem xor_lit_and_iff (cell covered : Bool) :
    (cell ^^ covered) = true ∧ covered = true ↔ cell = false ∧ covered = true := by
  cases covered <;> simp

/-- Settles O18: each draw is an XOR with the same sprite, so the second undoes the first, and what was
lit before the second is what was dark before the first. -/
theorem drawTwiceRestoresFrameBuffer : Obligations.DrawTwiceRestoresFrameBuffer := by
  intro x y n s t u hx hy fits first second
  obtain ⟨t', first', drawn, -, -, -, frame⟩ := (drawXorsSpriteAndReportsCollision x y n s).2.1 fits
  cases first.symm.trans first'
  have index : t.i = s.i := frame.parts .i (by decide)
  obtain ⟨u', second', drawn', collided, -⟩ :=
    (drawXorsSpriteAndReportsCollision x y n t).2.1 (by rwa [index])
  cases second.symm.trans second'
  rw [drawnSprite_kept n.val hx hy frame] at drawn' collided
  refine ⟨FrameBuffer.ext fun cy cx => ?_, ?_⟩
  · change u.fb[cy][cx] = s.fb[cy][cx]
    rw [drawn', drawn, Bool.xor_assoc, Bool.xor_self, Bool.xor_false]
  · simp only [collided, drawn, xor_lit_and_iff]

/-! ## The return from a call (R82) -/

/-- Settles O22: RET reads the entry that the call pushed, PC + 2 mod 4096, from the place SP had. -/
theorem returnUndoesCall : Obligations.ReturnUndoesCall := by
  intro nnn s t below call t' sp stack
  rw [exec_call_of_sp_lt nnn below] at call
  cases call
  have succ : t'.sp.val = (⟨s.sp.val, below⟩ : Fin 16).val + 1 := congrArg Fin.val sp
  refine ⟨_, exec_ret_of_sp_succ succ, ?_, rfl⟩
  have entry : t'.stack[(⟨s.sp.val, below⟩ : Fin 16)] = wrap12 (s.pc.toNat + 2) := by
    rw [stack]
    exact Vector.getElem_set_self _
  rw [State.resolve_pc, Directive.target_jump, entry, wrap12_toNat]

end Sys2Proof.Machine
